-- ==== Sys2Proof/Word.lean ====
section
/-! DEFINITION. The word types of SBUSDEC and the records its memories hold (30_encoding.md R90 to R100). -/

namespace Sys2Proof

/-- One 8-bit frame byte or level word (R6 LEVEL_W, R28). -/
abbrev Byte := BitVec 8

/-- One 32-bit control and status register, index, length or counter (R6 CSR_W, IDX_W, CNT_W). -/
abbrev Word := BitVec 32

/-- One 11-bit channel value (R20). -/
abbrev Chan := BitVec 11

/-- One 64-bit timestamp (R6 TS_W). -/
abbrev Stamp := BitVec 64

/-- One 12-bit 8E2 word, format W12 (R94): bit 11 start, bits 10:3 data, bit 2 parity, bits 1:0 stop. -/
abbrev W12 := BitVec 12

/-- Format INREC (R92): one sample of the input capture. -/
structure InRec where
  /-- LEVEL, bits 71:64: raw (active-low) levels of eight lines, bit c = line c. -/
  level : Byte
  /-- TS, bits 63:0: timestamp in ticks. -/
  ts : Stamp
  deriving DecidableEq, Repr, Inhabited

/-- Format RSREC (R93): one resampled bit. -/
structure RsRec where
  /-- BIT, bit 64: restored (active-high) level for one bit period. -/
  bit : Bool
  /-- TS, bits 63:0: its start timestamp. -/
  ts : Stamp
  deriving DecidableEq, Repr, Inhabited

/-- KIND of an event (R101: 0 LABEL, 1 BYTE, 2 FRAME_DECODED, 3 FRAME_LOST); its 2-bit code is `kindCode` of Decode.lean. -/
inductive EvKind where
  | label
  | byte
  | frameDecoded
  | frameLost
  deriving DecidableEq, Repr, Inhabited

/-- Format EVREC (R100): one event. A field an event of some kind does not carry is 0, as R100's table says. -/
structure EvRec where
  kind : EvKind
  /-- CH: the line being decoded. -/
  line : BitVec 3
  startIdx : Word := 0
  /-- END_IDX, exclusive. -/
  endIdx : Word := 0
  startTime : Stamp := 0
  endTime : Stamp := 0
  value : W12 := 0
  /-- SNAP_CH[1..18], entry n - 1 is channel n. -/
  snapCh : Vector Chan 18 := Vector.replicate 18 0
  snapFs : Bool := false
  snapGood : Word := 0
  snapLost : Word := 0
  snapErr : Word := 0
  snapLoss : BitVec 7 := 0
  deriving DecidableEq, Repr, Inhabited

/-- The records of a record memory (R37) that have been written: (index, record) pairs in strictly rising order of
index. What an index that is not listed holds is `State.inAt` and `State.rsAt` of Machine/Ops.lean. -/
abbrev Memory (α : Type) := List (Nat × α)

/-- The three record memories (R37). -/
inductive MemName where
  | inp
  | rs
  | ev
  deriving DecidableEq, Repr, Inhabited

end Sys2Proof
end

