-- ==== Sys2Proof/Config.lean ====
section
/-! DEFINITION. What an implementation of SBUSDEC fixes: the constants of 00_scope.md R5, the OPEN parameters of R7, and
the free values (each an opaque constant, so that no proof can see what it is). -/

namespace Sys2Proof.Config

/-- R5 FRAME_BITS: 25 bytes of 12 bits. -/
def frameBits : Nat := 300

/-- R5 FRAME_BYTES. -/
def frameBytes : Nat := 25

/-- R5 MIN_SAMPLE_RATE, Hz. -/
def minSampleRate : Nat := 200000

/-- R5 START_BYTE. -/
def startByte : Byte := 0xF0

/-- R5 END_BYTE. -/
def endByte : Byte := 0x00

/-- R5 FULL_SCALE. -/
def fullScale : Chan := 2047

/-- R7 EV_BITORDER: the bit-order conversion of a BYTE event's value (R212). -/
inductive BitOrder where
  | msbFirst
  | lsbFirst
  deriving DecidableEq, Repr, Inhabited

/-- R7 MODE_TIE: the rule that chooses among equally frequent gap values (R183). `other` stands for every rule that is
neither of the two the spec mentions: its choice is the free value `otherTie`. -/
inductive ModeTie where
  | smallest
  | largest
  | other
  deriving DecidableEq, Repr, Inhabited

/-- The OPEN parameters of R7 that a rule reads. HOST_PORT is not among them: the model works on CSR numbers and record
indices (D2). A capacity `none` is an unbounded memory (the default of R7). -/
structure Params where
  evBitOrder : BitOrder := .msbFirst
  modeTie : ModeTie := .smallest
  inCap : Option Nat := none
  rsCap : Option Nat := none
  evCap : Option Nat := none
  deriving DecidableEq, Repr, Inhabited

/-- The values R7 gives as "default the test vectors use". -/
def defaults : Params := {}

/-- FREE VALUE (R32, U2): what a host read of LOSS_PCT returns while LOSS_VALID = 0: any value 0 .. 127. -/
opaque freeLossPct : Nat → BitVec 7

/-- FREE VALUE (U9): what a host read of a CSR number that names no register returns. -/
opaque freeCsr : Nat → Word

/-- FREE VALUE (U13): what a host read of an IN record at or beyond IN_LEN returns. -/
opaque freeIn : Nat → InRec

/-- FREE VALUE (U13): what a host read of an RS record at or beyond RS_LEN returns. -/
opaque freeRs : Nat → RsRec

/-- FREE VALUE (R44, U13): what the IN record at an index (the second argument) holds while nothing has written it since
the hardware reset whose number is the first argument. -/
opaque unwrittenIn : Nat → Nat → InRec

/-- FREE VALUE (R39, R44, U13): what the RS record at an index (the second argument) holds while nothing has written it
since the last event that left RS unspecified, whose number is the first argument. -/
opaque unwrittenRs : Nat → Nat → RsRec

/-- FREE VALUE (U13): what a host read of an EV record at or beyond EV_LEN returns. -/
opaque freeEv : Nat → EvRec

/-- FREE VALUE (R7, U14): the place, among the equally frequent gap values in rising order, that a MODE_TIE rule
other than smallest and largest chooses; the choice depends on the tied values. It is read modulo their number. -/
opaque otherTie : List Nat → Nat

end Sys2Proof.Config
end

