-- ==== Sys2Proof/Syntax.lean ====
section
/-! DEFINITION. The operations of SBUSDEC, one constructor per row of spec/opcode_table.json (30_encoding.md R103), and
the accesses a host makes (R66, R107, D2). -/

namespace Sys2Proof

/-- Every operation of R103: host commands, unit micro-operations and the two views. -/
inductive Instr where
  -- host commands, 40_commands.md
  | nop
  | sreset
  | run
  | resample
  | frame
  | decode
  | modedet
  /-- Every 32-bit command word that names none of the seven commands (R142). -/
  | reservedCommand (w : Word)
  -- Bit Resampler, 41_resampler.md
  | rsScan
  | rsStart
  | rsEdge
  | rsFill
  | rsClip
  | rsTrail
  -- Mode Detector, 42_mode_detector.md
  | mdGap
  | mdClassify
  -- Frame Synchronizer, 43_framer.md
  | frLabel
  | frShift
  | frWord
  | frFrame
  | frDesync
  | frTail
  -- Frame Decoder, 44_decoder.md
  | decOk
  | decErr
  | decGood
  | decCh1
  | decCh2
  | decCh3
  | decCh4
  | decCh5
  | decCh6
  | decCh7
  | decCh8
  | decCh9
  | decCh10
  | decCh11
  | decCh12
  | decCh13
  | decCh14
  | decCh15
  | decCh16
  | decCh17
  | decCh18
  | decLost
  | decFs
  -- views: host reads of a derived CSR
  | losspct
  /-- Read of NORMn, n = 1 .. 18 (R282). -/
  | norm (n : Nat)
  deriving DecidableEq, Repr, Inhabited

/-- One access of the host, or its assertion of the reset input: whole CSRs by number and whole records by index
(R31, R66, R330, D2). -/
inductive HostAct where
  | writeCsr (n : Nat) (v : Word)
  | readCsr (n : Nat)
  | writeIn (k : Word) (r : InRec)
  | readIn (k : Word)
  | writeRs (k : Word) (r : RsRec)
  | readRs (k : Word)
  | readEv (k : Word)
  | hardwareReset
  deriving DecidableEq, Repr, Inhabited

/-- What a host read returned. -/
inductive Reply where
  | csr (v : Word)
  | inRec (r : InRec)
  | rsRec (r : RsRec)
  | evRec (r : EvRec)
  deriving DecidableEq, Repr, Inhabited

end Sys2Proof
end

