-- ==== Sys2Proof/WellFormed.lean ====
section
/-! DEFINITION. Which terms of Instr stand for an operation of the hardware. -/

namespace Sys2Proof

/-- A command word that names none of the seven commands: OPCODE 7 .. 15, or a bit of 31:4 set (R104, R142). -/
def isReservedWord (w : Word) : Bool := w.extractLsb' 4 28 != 0 || decide (7 ≤ (w.extractLsb' 0 4).toNat)

/-- Only two constructors have an operand: the reserved word must be reserved, and NORMn exists for n = 1 .. 18 (R31). -/
def Instr.wellFormed : Instr → Bool
  | .reservedCommand w => isReservedWord w
  | .norm n => decide (1 ≤ n ∧ n ≤ 18)
  | .nop | .sreset | .run | .resample | .frame | .decode | .modedet => true
  | .rsScan | .rsStart | .rsEdge | .rsFill | .rsClip | .rsTrail => true
  | .mdGap | .mdClassify => true
  | .frLabel | .frShift | .frWord | .frFrame | .frDesync | .frTail => true
  | .decOk | .decErr | .decGood | .decLost | .decFs => true
  | .decCh1 | .decCh2 | .decCh3 | .decCh4 | .decCh5 | .decCh6 | .decCh7 | .decCh8 | .decCh9 => true
  | .decCh10 | .decCh11 | .decCh12 | .decCh13 | .decCh14 | .decCh15 | .decCh16 | .decCh17 | .decCh18 => true
  | .losspct => true

end Sys2Proof
end

