-- ==== Sys2Proof/Decode.lean ====
section
/-! DEFINITION. The encodings of 30_encoding.md: the command word, the 200-bit frame F25, the CSR numbers of the views,
and the packed records; their decoders, then their encoders. -/

namespace Sys2Proof

/-- Field OPCODE of a command word, bits 3:0 (R91). -/
def cmdOpcode (w : Word) : BitVec 4 := w.extractLsb' 0 4

/-- Field ZERO of a command word, bits 31:4 (R91). -/
def cmdZero (w : Word) : BitVec 28 := w.extractLsb' 4 28

/-- R91, R142: which operation a command word selects. Total: every word that is none of the seven is the reserved
command, which raises IllegalCommand. -/
def decodeCmd (w : Word) : Instr :=
  if cmdZero w ≠ 0 then .reservedCommand w
  else match (cmdOpcode w).toNat with
    | 0 => .nop
    | 1 => .sreset
    | 2 => .run
    | 3 => .resample
    | 4 => .frame
    | 5 => .decode
    | 6 => .modedet
    | _ => .reservedCommand w

/-- CSR number of CMD (R31). -/
def csrCmd : Nat := 0x00

/-- CSR number of LOSS_PCT (R31). -/
def csrLossPct : Nat := 0x10

/-- CSR number of NORM1 (R31); NORMn is `csrNorm + (n - 1)`. -/
def csrNorm : Nat := 0x40

/-- The operation of R103 that a host access selects: a write of CMD starts a command, a read of LOSS_PCT or NORMn is a
view. Every other access is a plain read or write and no operation of the table. -/
def decodeHost : HostAct → Option Instr
  | .writeCsr n w => if n = csrCmd then some (decodeCmd w) else none
  | .readCsr n =>
    if n = csrLossPct then some .losspct
    else if csrNorm ≤ n ∧ n < csrNorm + 18 then some (.norm (n - csrNorm + 1))
    else none
  | .writeIn _ _ | .readIn _ | .writeRs _ _ | .readRs _ | .readEv _ | .hardwareReset => none

/-- R97: the mask over F25 of the bits that validation reads: START and END. -/
def frameMask : BitVec 200 := 0xFF0000000000000000000000000000000000000000000000FF#200

/-- R97: what those bits are in a valid frame: START = 0xF0, END = 0x00. -/
def frameMatch : BitVec 200 := 0xF0000000000000000000000000000000000000000000000000#200

/-- R97, R242: a 200-bit frame selects DEC.OK or DEC.ERR; no other bit takes part. -/
def decodeFrame (f : BitVec 200) : Instr := if f &&& frameMask = frameMatch then .decOk else .decErr

/-- R97: F = FB[0] ++ FB[1] ++ ... ++ FB[24], FB[0] in the high bits. -/
def frameOfBytes (fb : Vector Byte 25) : BitVec 200 :=
  fb.toList.foldl (fun f b => f <<< 8 ||| b.setWidth 200) 0

/-- R97: FB[k] = F[199 - 8k : 192 - 8k]. -/
def bytesOfFrame (f : BitVec 200) : Vector Byte 25 :=
  ⟨((List.range 25).map fun k => f.extractLsb' (192 - 8 * k) 8).toArray, by simp⟩

/-- R92: an IN record from its 72 bits, LEVEL in 71:64 and TS in 63:0. -/
def unpackIn (w : BitVec 72) : InRec := { level := w.extractLsb' 64 8, ts := w.extractLsb' 0 64 }

/-- R93: an RS record from its 65 bits, BIT in 64 and TS in 63:0. -/
def unpackRs (w : BitVec 65) : RsRec := { bit := w.getLsbD 64, ts := w.extractLsb' 0 64 }

/-- R101: what the 2-bit field KIND of an event says. -/
def kindOf (c : BitVec 2) : EvKind :=
  match c.toNat with
  | 0 => .label
  | 1 => .byte
  | 2 => .frameDecoded
  | _ => .frameLost

/-- The instruction that the decoder reads from the bits of a table row: a row of 32 bits is a command word, a row of
200 bits is a frame F25 (FB[0] in bits 199:192). No other row of the table has bits that select it. -/
def decodeTableWord (nbits w : Nat) : Option Instr :=
  if nbits = 32 then some (decodeCmd (BitVec.ofNat 32 w))
  else if nbits = 200 then some (decodeFrame (BitVec.ofNat 200 w))
  else none

/-- R91: the command word of a host command. -/
def encodeCmd : Instr → Option Word
  | .nop => some 0x00000000
  | .sreset => some 0x00000001
  | .run => some 0x00000002
  | .resample => some 0x00000003
  | .frame => some 0x00000004
  | .decode => some 0x00000005
  | .modedet => some 0x00000006
  | .reservedCommand w => some w
  | _ => none

/-- R31, R91: the host access that selects an operation. A micro-operation has none: it is selected by the unit's state
and its next input (R8, R103). -/
def encode (i : Instr) : Option HostAct :=
  match i with
  | .losspct => some (.readCsr csrLossPct)
  | .norm n => some (.readCsr (csrNorm + (n - 1)))
  | _ => (encodeCmd i).map (.writeCsr csrCmd)

/-- R100, R101: the 2-bit field KIND of an event. -/
def kindCode : EvKind → BitVec 2
  | .label => 0
  | .byte => 1
  | .frameDecoded => 2
  | .frameLost => 3

/-- R92: the 72 bits of an IN record. -/
def packIn (r : InRec) : BitVec 72 := r.level ++ r.ts

/-- R93: the 65 bits of an RS record. -/
def packRs (r : RsRec) : BitVec 65 := BitVec.ofBool r.bit ++ r.ts

end Sys2Proof
end

