-- ==== Sys2Proof/Machine/State.lean ====
section
/-! DEFINITION. The state of SBUSDEC (10_state.md), the reasons a step can stop, and the state after hardware reset. -/

namespace Sys2Proof.Machine

/-- Configuration registers (R31, R35): written by the host only; they survive SRESET. -/
structure Cfg where
  sampleRate : Word := 0
  /-- CONFIG[2:0]. -/
  chIndex : BitVec 3 := 0
  /-- CONFIG[5:4]: 0 AUTODETECT, 1 LOW_SPEED, 2 HIGH_SPEED, 3 reserved. -/
  mode : BitVec 2 := 0
  inLen : Word := 0
  rangeStart : Word := 0
  rangeEnd : Word := 0
  fbLen : Word := 0
  deriving DecidableEq, Repr, Inhabited

/-- The stored fields of STATUS (R25). -/
structure Status where
  done : Bool := false
  /-- The code of the exception the last command raised, 0 if none. -/
  err : BitVec 4 := 0
  /-- Bit c - 1: an exception of code c was raised in this session. -/
  errlog : BitVec 4 := 0
  deriving DecidableEq, Repr, Inhabited

/-- The session state of the FDU (R20, R24, R30): the source's DecodedFrame. -/
structure Decoded where
  /-- CH[1..18]; entry n - 1 is CH[n]. -/
  ch : Vector Chan 18 := Vector.replicate 18 0
  failsafe : Bool := false
  good : Word := 0
  lost : Word := 0
  errors : Word := 0
  deriving DecidableEq, Repr, Inhabited

/-- The FSU's pass registers (R23, R29). -/
structure Fsu where
  raw : W12 := 0
  bitcnt : BitVec 4 := 0
  bytecnt : BitVec 5 := 0
  byteStart : Word := 0
  frameStart : Word := 0
  /-- The source's "current_index". -/
  i : Word := 0
  deriving DecidableEq, Repr, Inhabited

/-- The RSU's pass registers (R22, R43 (b)). -/
structure Rsu where
  j : Word := 0
  k : Word := 0
  /-- Bits emitted for the current frame, 0 .. 300. -/
  count : Nat := 0
  t0 : Stamp := 0
  clipped : Bool := false
  deriving DecidableEq, Repr, Inhabited

/-- The MDU's pass state (R43 (c), R181, R187). -/
structure Mdu where
  /-- The second member q of the next pair (q - 1, q). -/
  q : Nat := 0
  /-- The end e of the range, exclusive. -/
  stop : Nat := 0
  /-- H: the count of each retained gap value. -/
  hist : Memory Nat := []
  /-- The pair (m, g) the MDU returns (R180). -/
  m : BitVec 2 := 0
  g : Bool := false
  deriving DecidableEq, Repr, Inhabited

/-- Where the core is between two micro-operations (R153, R187, R221, R307). Between commands it is `idle`. -/
inductive Activity where
  | idle
  /-- The MDU is walking its range or about to classify. -/
  | mdu
  /-- The MDU has returned. -/
  | mduDone
  /-- The RSU is scanning (R153). -/
  | scan
  /-- The RSU is in a frame (R153). -/
  | inFrame
  /-- An FSU pass is about to emit its label (R201). -/
  | fsuLabel
  /-- An FSU pass is about to initialise (R202). -/
  | fsuInit
  /-- The FSU is walking RS (R203). -/
  | fsuWalk
  /-- The FDU is about to run for a DECODE command (R139). -/
  | fdu
  deriving DecidableEq, Repr, Inhabited

/-- The whole machine. -/
structure State where
  /-- The OPEN parameters of R7; no step changes them. -/
  par : Config.Params
  cfg : Cfg := {}
  status : Status := {}
  dec : Decoded := {}
  frameCount : Word := 0
  prevLoss : BitVec 7 := 0
  progress : BitVec 7 := 0
  modeEff : BitVec 2 := 0
  modeFromGaps : Bool := false
  rsLen : Word := 0
  /-- FB[0..24] (R28). -/
  fb : Vector Byte 25 := Vector.replicate 25 0
  fsu : Fsu := {}
  rsu : Rsu := {}
  mdu : Mdu := {}
  /-- The IN records written since hardware reset. -/
  inMem : Memory InRec := []
  /-- How many hardware resets have left the IN records unspecified (U13); the model's own, read by `State.inAt`. -/
  inEra : Nat := 0
  /-- The RS records written since RS_LEN was last cleared by a reset or by the RSU. -/
  rsMem : Memory RsRec := []
  /-- How many resets and RSU passes have left the RS records unspecified (U13); the model's own, read by
  `State.rsAt`. -/
  rsEra : Nat := 0
  /-- The event queue, oldest first; EV_LEN is its length (R41). -/
  ev : List EvRec := []
  /-- The progress values emitted so far, oldest first (R42). -/
  prog : List (BitVec 7) := []
  act : Activity := .idle
  /-- The command in progress is RUN: the MDU hands over to the RSU and the RSU to the FSU (R136). -/
  inRun : Bool := false
  /-- The host's pending accesses, oldest first. -/
  host : List HostAct := []
  /-- What the last host read returned. -/
  reply : Option Reply := none
  /-- How many free values have been drawn. -/
  draws : Nat := 0
  deriving DecidableEq, Repr, Inhabited

/-- Reasons the machine stops with a fault: none. The three exceptions of R290 are taken, as R296 says, and "No behaviour
of this block is treated as `stuck`" (93_implementation_defined.md, after U18). -/
inductive Fault where
  deriving DecidableEq, Repr

/-- Reasons an access or an operation has no meaning. -/
inductive Refusal where
  /-- Raised by exec for an instruction that has no meaning yet. Safe. -/
  | notModelled (mnemonic : String)
  /-- Raised by RUN, RESAMPLE and MODEDET: timestamps of IN not strictly increasing, or one at or above 2^63, among the
  records the host wrote or the command reads (R336, U1: `refuse`). Safe. -/
  | inputNotIncreasing
  /-- Raised by FRAME: timestamps of RS not strictly increasing (R338, U4: `refuse`). Safe. -/
  | rsNotIncreasing
  /-- Raised by a command that needs more records than a memory holds (R339, U7: `refuse`). Safe. -/
  | capacity (m : MemName)
  /-- Raised by an operation that would take a 32-bit frame counter to 2^32 (R340, U6: `refuse`). Safe. -/
  | counterOverflow
  /-- Raised by a micro-operation of the given name in a state that does not select it (R103). Safe: the hardware
  does not execute it there. -/
  | notSelected (mnemonic : String)
  /-- Raised between two micro-operations when no rule selects a next one: possible only for records outside U1 or
  U4. Safe. -/
  | nothingSelected
  /-- Raised by a term of Instr that is not well formed: NORM of a channel that does not exist, or a reserved command
  with one of the seven legal words. Safe. -/
  | illFormed
  deriving DecidableEq, Repr, Inhabited

/-- The machine right after hardware reset, with the OPEN parameters `p` (R44, R331). -/
def State.resetWith (p : Config.Params) : State := { par := p }

/-- The machine right after hardware reset (R44, R331), with the parameter values R7 gives as defaults. -/
def State.reset : State := State.resetWith Config.defaults

end Sys2Proof.Machine
end

