-- ==== Sys2Proof/Machine/Ops.lean ====
section
/-! DEFINITION. The named operations over memories, registers and streams that every meaning is written with, the
prologue and epilogue of a command, and the taking of an exception (40_commands.md R132, 60_exceptions.md R296). -/

namespace Sys2Proof

/-- MemRead (R14) of a written record; none where nothing has written it. -/
def Memory.read {α : Type} : Memory α → Nat → Option α
  | [], _ => none
  | (a, v) :: m, k => if a = k then some v else Memory.read m k

/-- MemWrite (R14), keeping the indices strictly rising. -/
def Memory.write {α : Type} : Memory α → Nat → α → Memory α
  | [], k, v => [(k, v)]
  | (a, u) :: m, k, v =>
    if k < a then (k, v) :: (a, u) :: m
    else if k = a then (k, v) :: m
    else (a, u) :: Memory.write m k v

/-- The canonical form: indices strictly rising. No entry equals what an unlisted index reads as here, which is none; what
such a record holds is a free value, which no entry can be compared with (log 7). -/
def Memory.wf {α : Type} : Memory α → Bool
  | [] => true
  | [_] => true
  | a :: b :: m => decide (a.1 < b.1) && Memory.wf (b :: m)

namespace Machine

/-- The record at index k of IN: what was last written there, or else a free value (U13), the same one at every read
until the next hardware reset (R67). -/
def State.inAt (s : State) (k : Nat) : InRec := (s.inMem.read k).getD (Config.unwrittenIn s.inEra k)

/-- The record at index k of RS: what was last written there, or else a free value (U13), the same one at every read
until the next reset or RSU pass (R67). -/
def State.rsAt (s : State) (k : Nat) : RsRec := (s.rsMem.read k).getD (Config.unwrittenRs s.rsEra k)

/-- The number of ticks from stamp a to stamp b, where b is later; otherwise there is none (U1, U4: a zero or negative
difference has no behaviour). -/
def ticks (a b : Stamp) : Option Nat := if a.toNat < b.toNat then some (b.toNat - a.toNat) else none

/-- What a meaning answers. -/
abbrev Out := Host.Outcome State Fault Refusal

/-- Do one thing, then another; a fault or a refusal ends the whole. -/
def andThen (o : Out) (f : State → Out) : Out :=
  match o with
  | .next s => f s
  | .fault r => .fault r
  | .refused r => .refused r

/-- A micro-operation runs only in a state that selects it (R103). -/
def whenSelected (sel : Bool) (mnemonic : String) (o : Out) : Out :=
  if sel then o else .refused (.notSelected mnemonic)

/-- A length that a memory of the given capacity, counted in an IDX_W = 32 bit length register, can have (R6, R339). -/
def fits (cap : Option Nat) (n : Nat) : Bool :=
  decide (n < 2 ^ 32) && (match cap with | none => true | some c => decide (n ≤ c))

/-- RS.append (R14). -/
def appendRs (r : RsRec) (s : State) : Out :=
  if fits s.par.rsCap (s.rsLen.toNat + 1) then
    .next { s with rsMem := s.rsMem.write s.rsLen.toNat r, rsLen := s.rsLen + 1 }
  else .refused (.capacity .rs)

/-- EV.append (R14, R41). -/
def appendEv (e : EvRec) (s : State) : Out :=
  if fits s.par.evCap (s.ev.length + 1) then .next { s with ev := s.ev ++ [e] }
  else .refused (.capacity .ev)

/-- PROG.append (R14, R42) and its mirror PROGRESS (R33). -/
def emitProgress (p : BitVec 7) (s : State) : State := { s with prog := s.prog ++ [p], progress := p }

/-- A frame counter plus 1; reaching 2^32 is refused (R30, U6). -/
def counterUp (c : Word) (f : Word → Out) : Out :=
  if c.toNat + 1 < 2 ^ 32 then f (c + 1) else .refused .counterOverflow

/-- FB[k] (R28). -/
def fbAt (fb : Vector Byte 25) (k : Nat) : Byte := (fb[k]?).getD 0

/-- FB[k] <- b (R28). -/
def State.setFb (s : State) (k : Nat) (b : Byte) : State := { s with fb := s.fb.setIfInBounds k b }

/-- FB[0..24] <- 0. -/
def State.clearFb (s : State) : State := { s with fb := Vector.replicate 25 0 }

/-- CH[n], n = 1 .. 18 (R20). -/
def chAt (ch : Vector Chan 18) (n : Nat) : Chan := (ch[n - 1]?).getD 0

/-- CH[n] <- v, n = 1 .. 18 (R20). -/
def State.setCh (s : State) (n : Nat) (v : Chan) : State :=
  { s with dec := { s.dec with ch := s.dec.ch.setIfInBounds (n - 1) v } }

/-- The three exceptions (R290). -/
inductive Exc where
  | preconditionFailure
  | invalidArgument
  | illegalCommand
  deriving DecidableEq, Repr, Inhabited

/-- The code of an exception (R290, R101). -/
def excCode : Exc → Nat
  | .preconditionFailure => 1
  | .invalidArgument => 2
  | .illegalCommand => 3

/-- R132: what every command does first. It also clears the previous command's ERR: there is no other return from an
exception (R298). -/
def State.prologue (s : State) : State := { s with status := { s.status with done := false, err := 0 } }

/-- R132: what a command that does not raise does last. -/
def State.epilogue (s : State) : State := { s with status := { s.status with done := true } }

/-- R296: taking an exception. ERR gets the code, bit code - 1 of ERRLOG is set, DONE stays 0, nothing else changes. -/
def State.takeException (s : State) (e : Exc) : State :=
  { s with status := { s.status with
      err := BitVec.ofNat 4 (excCode e)
      errlog := s.status.errlog ||| BitVec.twoPow 4 (excCode e - 1) } }

/-- `raise` in a command body (R15, R296). -/
def raise (e : Exc) (s : State) : Out := .next (s.takeException e)

/-- The unit of a command is done and the core is idle again (R307). -/
def State.goIdle (s : State) : State := { s with act := .idle, inRun := false }

/-- R134: the state SRESET clears: every item of lifetime session or pass (R44). Configuration and IN stay; the RS records
are unspecified again (R39). -/
def State.clearSession (s : State) : State :=
  { s with
    status := { s.status with errlog := 0 }
    dec := {}
    frameCount := 0
    prevLoss := 0
    progress := 0
    modeEff := 0
    modeFromGaps := false
    rsLen := 0
    rsMem := []
    rsEra := s.rsEra + 1
    ev := []
    fb := Vector.replicate 25 0
    fsu := {}
    rsu := {}
    mdu := {} }

/-- R330 to R332: hardware reset, whatever the core was doing. The OPEN parameters are the machine's, the pending
accesses are the host's; a drawn free value is not drawn again, and the IN and RS records are unspecified again. -/
def State.hardwareReset (s : State) : State :=
  { State.resetWith s.par with
    host := s.host, draws := s.draws, inEra := s.inEra + 1, rsEra := s.rsEra + 1 }

end Machine

end Sys2Proof
end

