-- ==== Sys2Proof/Machine/Operands.lean ====
section
/-! DEFINITION. Every assembled operand of the spec: derived timing (R13, R152), restored levels (R151), the data field
of a word (R206), the sixteen windows of a frame (R246 to R261) and its flag bits (R97), and reversal (R12). -/

namespace Sys2Proof.Machine

/-- `rnd(dt, s)` (R13): the nearest integer to dt / s, a tie going up. -/
def rnd (dt s : Nat) : Nat := (2 * dt + s) / (2 * s)

/-- SPB (R31, R152): ticks per bit period. -/
def spb (s : State) : Nat := (s.cfg.sampleRate.toNat + 50000) / 100000

/-- FRAME_GAP (R152). -/
def frameGap (s : State) : Nat := Config.frameBits * spb s

/-- `rev_N` (R12). -/
def rev {n : Nat} (x : BitVec n) : BitVec n := x.reverse

/-- Level restoration (R151): the complement of the selected bit of the level word. -/
def lvl (r : InRec) (line : BitVec 3) : Bool := !(r.level.getLsbD line.toNat)

/-- The start timestamp of bit m of a frame that starts at T0 (R157). -/
def bitTime (s : State) (m : Nat) : Stamp := BitVec.ofNat 64 (s.rsu.t0.toNat + m * spb s)

/-- The common part of R204, R205, R213: the bit placed at position 11 - BITCNT of RAW. -/
def shiftIn (raw : W12) (bit : Bool) (bitcnt : BitVec 4) : W12 :=
  raw ||| ((BitVec.ofBool bit).setWidth 12 <<< (11 - bitcnt.toNat))

/-- Byte extraction (R206): (RAW >> 3) & 0xFF. -/
def dataByte (raw : W12) : Byte := (raw >>> 3).setWidth 8

/-- `evconv` (R212). -/
def evconv (o : Config.BitOrder) (w : W12) : W12 :=
  match o with
  | .msbFirst => w
  | .lsbFirst => rev w

/-- FB byte a as an unsigned number wide enough for every shift of R268. -/
def wide (fb : Vector Byte 25) (a : Nat) : BitVec 24 := (fbAt fb a).setWidth 24

/-- A window over two bytes (R268): ((FB[a] << sa) | (FB[b] >> sb)) & 0x7FF. -/
def window2 (fb : Vector Byte 25) (a sa b sb : Nat) : Chan :=
  (wide fb a <<< sa ||| wide fb b >>> sb).setWidth 11

/-- A window over three bytes (R268): ((FB[a] << sa) | (FB[b] << sb) | (FB[c] >> sc)) & 0x7FF. -/
def window3 (fb : Vector Byte 25) (a sa b sb c sc : Nat) : Chan :=
  (wide fb a <<< sa ||| wide fb b <<< sb ||| wide fb c >>> sc).setWidth 11

/-- EXT1 (R246). -/
def ext1 (fb : Vector Byte 25) : Chan := window2 fb 1 3 2 5
/-- EXT2 (R247). -/
def ext2 (fb : Vector Byte 25) : Chan := window2 fb 2 6 3 2
/-- EXT3 (R248). -/
def ext3 (fb : Vector Byte 25) : Chan := window3 fb 3 9 4 1 5 7
/-- EXT4 (R249). -/
def ext4 (fb : Vector Byte 25) : Chan := window2 fb 5 4 6 4
/-- EXT5 (R250). -/
def ext5 (fb : Vector Byte 25) : Chan := window2 fb 6 7 7 1
/-- EXT6 (R251). -/
def ext6 (fb : Vector Byte 25) : Chan := window3 fb 7 10 8 2 9 6
/-- EXT7 (R252). -/
def ext7 (fb : Vector Byte 25) : Chan := window2 fb 9 5 10 3
/-- EXT8 (R253). -/
def ext8 (fb : Vector Byte 25) : Chan := window2 fb 10 8 11 0
/-- EXT9 (R254). -/
def ext9 (fb : Vector Byte 25) : Chan := window2 fb 12 3 13 5
/-- EXT10 (R255). -/
def ext10 (fb : Vector Byte 25) : Chan := window2 fb 13 6 14 2
/-- EXT11 (R256). -/
def ext11 (fb : Vector Byte 25) : Chan := window3 fb 14 9 15 1 16 7
/-- EXT12 (R257). -/
def ext12 (fb : Vector Byte 25) : Chan := window2 fb 16 4 17 4
/-- EXT13 (R258). -/
def ext13 (fb : Vector Byte 25) : Chan := window2 fb 17 7 18 1
/-- EXT14 (R259). -/
def ext14 (fb : Vector Byte 25) : Chan := window3 fb 18 10 19 2 20 6
/-- EXT15 (R260). -/
def ext15 (fb : Vector Byte 25) : Chan := window2 fb 20 5 21 3
/-- EXT16 (R261). -/
def ext16 (fb : Vector Byte 25) : Chan := window2 fb 21 8 22 0

/-- Bit b of the flag byte FB[23] (R97, R262 to R265). -/
def flagBit (fb : Vector Byte 25) (b : Nat) : Bool := (fbAt fb 23).getLsbD b

/-- A digital channel: 2047 or 0 (R262, R263). -/
def digital (b : Bool) : Chan := if b then Config.fullScale else 0

/-- Validation (R242): FB[0] = 0xF0 and FB[24] = 0x00; no other byte takes part. -/
def frameValid (fb : Vector Byte 25) : Bool :=
  fbAt fb 0 == Config.startByte && fbAt fb 24 == Config.endByte

end Sys2Proof.Machine
end

