-- ==== Sys2Proof/Machine/Flags.lean ====
section
/-! DEFINITION. Every flag and derived quantity of the spec: STATUS (R25, R26, R31), the loss percentage (R32), the tag of
a frame event (R215), the progress percentage (R218), the mode's encoding (R36) and the normalised view (R282). There
are no arithmetic condition codes (R27). -/

namespace Sys2Proof.Machine

/-- GOOD_FRAMES + LOST_FRAMES + ERROR_FRAMES, an unbounded sum (R26). -/
def frameTotal (s : State) : Nat := s.dec.good.toNat + s.dec.lost.toNat + s.dec.errors.toNat

/-- LOSS_VALID (R26). -/
def lossValid (s : State) : Bool := frameTotal s != 0

/-- The source's frame_loss_percent (R32), defined when the sum of the three is not 0. -/
def lossPercent (good lost errors : Nat) : Nat := (lost + errors) * 100 / (good + lost + errors)

/-- The loss percentage of a state with LOSS_VALID = 1, as the 7-bit value of R32. -/
def lossPct (s : State) : BitVec 7 :=
  BitVec.ofNat 7 (lossPercent s.dec.good.toNat s.dec.lost.toNat s.dec.errors.toNat)

/-- The tag of a frame event (R215): FRAME_DECODED when the percentage is unchanged. -/
def frameTag (lp prevLoss : BitVec 7) : EvKind := if lp = prevLoss then .frameDecoded else .frameLost

/-- The progress percentage after the step that brings the index to `i` (R218). -/
def progressPct (i last : Nat) : BitVec 7 := BitVec.ofNat 7 (100 * i / last)

/-- STATUS (R31): DONE, LOSS_VALID, ERR in 7:4, ERRLOG in 11:8. -/
def statusWord (s : State) : Word :=
  (0 : BitVec 20) ++ s.status.errlog ++ s.status.err ++ (0 : BitVec 2) ++
    BitVec.ofBool (lossValid s) ++ BitVec.ofBool s.status.done

/-- CONFIG (R31): CH_INDEX in 2:0, MODE in 5:4. -/
def configWord (s : State) : Word := (0 : BitVec 26) ++ s.cfg.mode ++ (0 : BitVec 1) ++ s.cfg.chIndex

/-- MODE_RESULT (R31, R36): MODE_EFF in 1:0, MODE_FROM_GAPS in bit 8. -/
def modeResultWord (s : State) : Word :=
  (0 : BitVec 23) ++ BitVec.ofBool s.modeFromGaps ++ (0 : BitVec 6) ++ s.modeEff

/-- The PRECHECK condition (R135), on SAMPLE_RATE itself. -/
def rateOk (s : State) : Bool := decide (Config.minSampleRate ≤ s.cfg.sampleRate.toNat)

/-- `norm(c)` (R282): exact rational arithmetic, ties up. -/
def normView (c : Nat) : Int := ((50 * c + 248) / 496 : Nat) - 100

end Sys2Proof.Machine
end

