-- ==== Sys2Proof/Machine/Fdu.lean ====
section
/-! DEFINITION. The Frame Decoder's operations (44_decoder.md R243 to R265) and its body (R271). -/

namespace Sys2Proof.Machine

/-- A part of DEC.OK that writes one channel register. -/
def writeChannel (mnemonic : String) (n : Nat) (v : Vector Byte 25 → Chan) (s : State) : Out :=
  whenSelected (frameValid s.fb) mnemonic (.next (s.setCh n (v s.fb)))

/-- DEC.ERR (R243): ERROR_FRAMES + 1 and nothing else. -/
def execDecErr (s : State) : Out :=
  whenSelected (!frameValid s.fb) "DEC.ERR"
    (counterUp s.dec.errors fun c => .next { s with dec := { s.dec with errors := c } })

/-- DEC.GOOD (R245). -/
def execDecGood (s : State) : Out :=
  whenSelected (frameValid s.fb) "DEC.GOOD"
    (counterUp s.dec.good fun c => .next { s with dec := { s.dec with good := c } })

/-- DEC.CH1 (R246). -/
def execDecCh1 (s : State) : Out := writeChannel "DEC.CH1" 1 (fun fb => rev (ext1 fb)) s
/-- DEC.CH2 (R247). -/
def execDecCh2 (s : State) : Out := writeChannel "DEC.CH2" 2 (fun fb => rev (ext2 fb)) s
/-- DEC.CH3 (R248). -/
def execDecCh3 (s : State) : Out := writeChannel "DEC.CH3" 3 (fun fb => rev (ext3 fb)) s
/-- DEC.CH4 (R249). -/
def execDecCh4 (s : State) : Out := writeChannel "DEC.CH4" 4 (fun fb => rev (ext4 fb)) s
/-- DEC.CH5 (R250). -/
def execDecCh5 (s : State) : Out := writeChannel "DEC.CH5" 5 (fun fb => rev (ext5 fb)) s
/-- DEC.CH6 (R251). -/
def execDecCh6 (s : State) : Out := writeChannel "DEC.CH6" 6 (fun fb => rev (ext6 fb)) s
/-- DEC.CH7 (R252). -/
def execDecCh7 (s : State) : Out := writeChannel "DEC.CH7" 7 (fun fb => rev (ext7 fb)) s
/-- DEC.CH8 (R253). -/
def execDecCh8 (s : State) : Out := writeChannel "DEC.CH8" 8 (fun fb => rev (ext8 fb)) s
/-- DEC.CH9 (R254). -/
def execDecCh9 (s : State) : Out := writeChannel "DEC.CH9" 9 (fun fb => rev (ext9 fb)) s
/-- DEC.CH10 (R255). -/
def execDecCh10 (s : State) : Out := writeChannel "DEC.CH10" 10 (fun fb => rev (ext10 fb)) s
/-- DEC.CH11 (R256). -/
def execDecCh11 (s : State) : Out := writeChannel "DEC.CH11" 11 (fun fb => rev (ext11 fb)) s
/-- DEC.CH12 (R257). -/
def execDecCh12 (s : State) : Out := writeChannel "DEC.CH12" 12 (fun fb => rev (ext12 fb)) s
/-- DEC.CH13 (R258). -/
def execDecCh13 (s : State) : Out := writeChannel "DEC.CH13" 13 (fun fb => rev (ext13 fb)) s
/-- DEC.CH14 (R259). -/
def execDecCh14 (s : State) : Out := writeChannel "DEC.CH14" 14 (fun fb => rev (ext14 fb)) s
/-- DEC.CH15 (R260). -/
def execDecCh15 (s : State) : Out := writeChannel "DEC.CH15" 15 (fun fb => rev (ext15 fb)) s
/-- DEC.CH16 (R261). -/
def execDecCh16 (s : State) : Out := writeChannel "DEC.CH16" 16 (fun fb => rev (ext16 fb)) s
/-- DEC.CH17 (R262). -/
def execDecCh17 (s : State) : Out := writeChannel "DEC.CH17" 17 (fun fb => digital (flagBit fb 7)) s
/-- DEC.CH18 (R263). -/
def execDecCh18 (s : State) : Out := writeChannel "DEC.CH18" 18 (fun fb => digital (flagBit fb 6)) s

/-- DEC.LOST (R264): selected in a DEC.OK with bit 5 of FB[23] set. -/
def execDecLost (s : State) : Out :=
  whenSelected (frameValid s.fb && flagBit s.fb 5) "DEC.LOST"
    (counterUp s.dec.lost fun c => .next { s with dec := { s.dec with lost := c } })

/-- DEC.FS (R265). -/
def execDecFs (s : State) : Out :=
  whenSelected (frameValid s.fb) "DEC.FS" (.next { s with dec := { s.dec with failsafe := flagBit s.fb 4 } })

/-- The eighteen channel operations of a DEC.OK, in the order of R271. -/
def decChannels (s : State) : Out :=
  andThen (execDecCh1 s) fun s => andThen (execDecCh2 s) fun s => andThen (execDecCh3 s) fun s =>
  andThen (execDecCh4 s) fun s => andThen (execDecCh5 s) fun s => andThen (execDecCh6 s) fun s =>
  andThen (execDecCh7 s) fun s => andThen (execDecCh8 s) fun s => andThen (execDecCh9 s) fun s =>
  andThen (execDecCh10 s) fun s => andThen (execDecCh11 s) fun s => andThen (execDecCh12 s) fun s =>
  andThen (execDecCh13 s) fun s => andThen (execDecCh14 s) fun s => andThen (execDecCh15 s) fun s =>
  andThen (execDecCh16 s) fun s => andThen (execDecCh17 s) execDecCh18

/-- DEC.OK (R244): the sequence of the operations of R245 to R265, all reading the same FB. -/
def execDecOk (s : State) : Out :=
  whenSelected (frameValid s.fb) "DEC.OK"
    (andThen (execDecGood s) fun s => andThen (decChannels s) fun s =>
      andThen (if flagBit s.fb 5 then execDecLost s else .next s) execDecFs)

/-- FDU(FB) (R271). -/
def fdu (s : State) : Out := if frameValid s.fb then execDecOk s else execDecErr s

end Sys2Proof.Machine
end

