-- ==== Sys2Proof/Machine/Fsu.lean ====
section
/-! DEFINITION. The Frame Synchronizer's operations (43_framer.md R201 to R219), their selectors, and its body (R221). -/

namespace Sys2Proof.Machine

/-- RS.ts[i + 1] - RS.ts[i], tested only where i + 1 < end (R203). -/
def syncGap (s : State) : Option Nat :=
  if s.fsu.i.toNat + 1 < s.rsLen.toNat then ticks (s.rsAt s.fsu.i.toNat).ts (s.rsAt (s.fsu.i.toNat + 1)).ts else none

/-- The sample at index i is in sync (R203). -/
def inSync (s : State) : Bool := s.act == .fsuWalk && (syncGap s).any fun d => decide (d ≤ spb s)

/-- FR.LABEL is selected: the start of a pass (R201). -/
def selFrLabel (s : State) : Bool := s.act == .fsuLabel

/-- FR.SHIFT is selected (R204). -/
def selFrShift (s : State) : Bool := inSync s && decide (s.fsu.bitcnt.toNat < 11)

/-- FR.WORD is selected (R205). -/
def selFrWord (s : State) : Bool :=
  inSync s && decide (s.fsu.bitcnt.toNat = 11) && decide (s.fsu.bytecnt.toNat < 24)

/-- FR.FRAME is selected (R213). -/
def selFrFrame (s : State) : Bool :=
  inSync s && decide (s.fsu.bitcnt.toNat = 11) && decide (s.fsu.bytecnt.toNat = 24)

/-- FR.DESYNC is selected (R217). -/
def selFrDesync (s : State) : Bool := s.act == .fsuWalk && (syncGap s).any fun d => decide (spb s < d)

/-- FR.TAIL is selected (R219). -/
def selFrTail (s : State) : Bool := s.act == .fsuWalk && decide (s.fsu.i.toNat + 1 = s.rsLen.toNat)

/-- The common ending of every step (R218). -/
def stepEnd (s : State) : State :=
  emitProgress (progressPct (s.fsu.i.toNat + 1) s.rsLen.toNat) { s with fsu := { s.fsu with i := s.fsu.i + 1 } }

/-- RAW with the bit of the current sample in its place (R204, R205, R213). -/
def nextRaw (s : State) : W12 := shiftIn s.fsu.raw (s.rsAt s.fsu.i.toNat).bit s.fsu.bitcnt

/-- The BYTE event of the completed word `raw` (R211). -/
def byteEvent (s : State) (raw : W12) : EvRec :=
  { kind := .byte, line := s.cfg.chIndex, startIdx := s.fsu.byteStart, endIdx := s.fsu.i + 1,
    startTime := (s.rsAt s.fsu.byteStart.toNat).ts, endTime := (s.rsAt (s.fsu.i.toNat + 1)).ts,
    value := evconv s.par.evBitOrder raw }

/-- The frame event, with the decoder state after the decode (R215). -/
def frameEvent (s : State) (lp : BitVec 7) : EvRec :=
  { kind := frameTag lp s.prevLoss, line := s.cfg.chIndex, startIdx := s.fsu.frameStart, endIdx := s.fsu.i + 1,
    startTime := (s.rsAt s.fsu.frameStart.toNat).ts, endTime := (s.rsAt (s.fsu.i.toNat + 1)).ts, snapCh := s.dec.ch, snapFs := s.dec.failsafe, snapGood := s.dec.good,
    snapLost := s.dec.lost, snapErr := s.dec.errors, snapLoss := lp }

/-- The twelfth bit of a word (R205, R213): RAW complete, its data byte in FB[BYTECNT] (R206, R208), its BYTE event
(R211); then `rest`, with RAW and BITCNT cleared. -/
def completeWord (s : State) (rest : State → Out) : Out :=
  andThen (appendEv (byteEvent s (nextRaw s)) (s.setFb s.fsu.bytecnt.toNat (dataByte (nextRaw s)))) fun s =>
    rest { s with fsu := { s.fsu with raw := 0, bitcnt := 0 } }

/-- FR.LABEL (R201). -/
def execFrLabel (s : State) : Out :=
  whenSelected (selFrLabel s) "FR.LABEL" <|
    andThen (appendEv { kind := .label, line := s.cfg.chIndex } s) fun s => .next { s with act := .fsuInit }

/-- FR.SHIFT (R204). -/
def execFrShift (s : State) : Out :=
  whenSelected (selFrShift s) "FR.SHIFT" <|
    .next (stepEnd { s with fsu := { s.fsu with
      byteStart := if s.fsu.bitcnt = 0 then s.fsu.i else s.fsu.byteStart
      frameStart := if s.fsu.bitcnt = 0 ∧ s.fsu.bytecnt = 0 then s.fsu.i else s.fsu.frameStart
      raw := nextRaw s
      bitcnt := s.fsu.bitcnt + 1 } })

/-- FR.WORD (R205). -/
def execFrWord (s : State) : Out :=
  whenSelected (selFrWord s) "FR.WORD" <|
    completeWord s fun s => .next (stepEnd { s with fsu := { s.fsu with bytecnt := s.fsu.bytecnt + 1 } })

/-- What follows the decode in FR.FRAME (R213 to R216): the frame event, PREV_LOSS, and an empty frame buffer. -/
def closeFrame (s : State) : Out :=
  let lp := lossPct s
  andThen (appendEv (frameEvent s lp) s) fun s =>
    .next { s.clearFb with prevLoss := lp, fsu := { s.fsu with bytecnt := 0 } }

/-- FR.FRAME (R213). -/
def execFrFrame (s : State) : Out :=
  whenSelected (selFrFrame s) "FR.FRAME" <|
    completeWord s fun s =>
      counterUp s.frameCount fun c =>
        andThen (fdu { s with frameCount := c }) fun s => andThen (closeFrame s) fun s => .next (stepEnd s)

/-- FR.DESYNC (R217). -/
def execFrDesync (s : State) : Out :=
  whenSelected (selFrDesync s) "FR.DESYNC" <|
    .next (stepEnd { s.clearFb with fsu := { s.fsu with raw := 0, bitcnt := 0, bytecnt := 0 } })

/-- FR.TAIL (R219). -/
def execFrTail (s : State) : Out := whenSelected (selFrTail s) "FR.TAIL" (.next (stepEnd s))

/-- A pass is about to start (R221). -/
def fsuBegin (s : State) : State := { s with act := .fsuLabel }

/-- Pass initialisation, after FR.LABEL (R202). -/
def fsuInit (s : State) : State := { s.clearFb with fsu := {}, progress := 0, act := .fsuWalk }

/-- The pass ends when i = end (R203, R221). -/
def fsuDone (s : State) : Bool := s.act == .fsuWalk && decide (s.rsLen.toNat ≤ s.fsu.i.toNat)

/-- One step of the walk: the operation that the state and the next input select (R203). -/
def fsuStep (s : State) : Out :=
  if selFrShift s then execFrShift s
  else if selFrWord s then execFrWord s
  else if selFrFrame s then execFrFrame s
  else if selFrDesync s then execFrDesync s
  else if selFrTail s then execFrTail s
  else .refused .nothingSelected

/-- `n` steps of the walk. -/
def fsuLoop : Nat → State → Out
  | 0, s => .next s
  | n + 1, s => andThen (fsuStep s) (fsuLoop n)

/-- The whole FSU body (R221): exactly RS_LEN steps (R223). -/
def fsuBody (s : State) : Out :=
  andThen (execFrLabel (fsuBegin s)) fun s => fsuLoop s.rsLen.toNat (fsuInit s)

end Sys2Proof.Machine
end

