-- ==== Sys2Proof/Machine/Rsu.lean ====
section
/-! DEFINITION. The Bit Resampler's operations (41_resampler.md R154 to R160), their selectors, and its body (R163). -/

namespace Sys2Proof.Machine

/-- IN.ts[b] - IN.ts[a]. -/
def inGap (s : State) (a b : Nat) : Option Nat := ticks (s.inAt a).ts (s.inAt b).ts

/-- The gap tested while scanning: the pair (j - 1, j) (R153). -/
def scanGap (s : State) : Option Nat :=
  if 1 ≤ s.rsu.j.toNat ∧ s.rsu.j.toNat < s.cfg.inLen.toNat then inGap s (s.rsu.j.toNat - 1) s.rsu.j.toNat else none

/-- The gap tested in a frame: the pair (k, k + 1) (R156, R158). -/
def edgeGap (s : State) : Option Nat :=
  if s.rsu.k.toNat + 1 < s.cfg.inLen.toNat then inGap s s.rsu.k.toNat (s.rsu.k.toNat + 1) else none

/-- RS.SCAN is selected (R154). -/
def selRsScan (s : State) : Bool := s.act == .scan && (scanGap s).any fun d => decide (d ≤ frameGap s)

/-- RS.START is selected (R155). -/
def selRsStart (s : State) : Bool := s.act == .scan && (scanGap s).any fun d => decide (frameGap s < d)

/-- The RSU is in a frame with COUNT < 300 (R156, R158, R159). -/
def frameOpen (s : State) : Bool := s.act == .inFrame && decide (s.rsu.count < Config.frameBits)

/-- RS.EDGE is selected (R156). -/
def selRsEdge (s : State) : Bool := frameOpen s && (edgeGap s).any fun d => decide (d ≤ frameGap s)

/-- RS.FILL is selected (R158). -/
def selRsFill (s : State) : Bool := frameOpen s && (edgeGap s).any fun d => decide (frameGap s < d)

/-- RS.CLIP is selected (R159). -/
def selRsClip (s : State) : Bool := frameOpen s && decide (s.cfg.inLen.toNat ≤ s.rsu.k.toNat + 1)

/-- RS.TRAIL is selected (R160). -/
def selRsTrail (s : State) : Bool := s.act == .inFrame && decide (s.rsu.count = Config.frameBits)

/-- n records of one level at bits m, m + 1, ... of the frame (R156, R158, R159). -/
def appendBits (b : Bool) : Nat → Nat → State → Out
  | 0, _, s => .next s
  | n + 1, m, s => andThen (appendRs { bit := b, ts := bitTime s m } s) (appendBits b n (m + 1))

/-- `n` records of level `b` after the COUNT already emitted, and COUNT with them. -/
def emitBits (b : Bool) (n : Nat) (s : State) : Out :=
  andThen (appendBits b n s.rsu.count s) fun s => .next { s with rsu := { s.rsu with count := s.rsu.count + n } }

/-- RS.SCAN (R154). -/
def execRsScan (s : State) : Out :=
  whenSelected (selRsScan s) "RS.SCAN" (.next { s with rsu := { s.rsu with j := s.rsu.j + 1 } })

/-- RS.START (R155). -/
def execRsStart (s : State) : Out :=
  whenSelected (selRsStart s) "RS.START" <|
    .next { s with
      act := .inFrame
      rsu := { s.rsu with t0 := (s.inAt s.rsu.j.toNat).ts, count := 0, k := s.rsu.j, clipped := false } }

/-- The level of the frame's current sample (R151). -/
def frameLevel (s : State) : Bool := lvl (s.inAt s.rsu.k.toNat) s.cfg.chIndex

/-- The number of bits RS.EDGE emits (R156): the rounded gap, clamped to 300 bits in all. -/
def edgeBits (s : State) : Nat := min (rnd ((edgeGap s).getD 0) (spb s)) (Config.frameBits - s.rsu.count)

/-- RS.EDGE (R156). -/
def execRsEdge (s : State) : Out :=
  whenSelected (selRsEdge s) "RS.EDGE" <|
    andThen (emitBits (frameLevel s) (edgeBits s) s) fun s => .next { s with rsu := { s.rsu with k := s.rsu.k + 1 } }

/-- RS.FILL (R158): the residual of a frame that ends at a gap, at the level of its last sample. -/
def execRsFill (s : State) : Out :=
  whenSelected (selRsFill s) "RS.FILL" <|
    emitBits (frameLevel s) (Config.frameBits - s.rsu.count) s

/-- RS.CLIP (R159): the residual of a frame cut by the end of the capture, zeros. -/
def execRsClip (s : State) : Out :=
  whenSelected (selRsClip s) "RS.CLIP" <|
    emitBits false (Config.frameBits - s.rsu.count) { s with rsu := { s.rsu with clipped := true } }

/-- RS.TRAIL (R160): one trailing record of level 0; the next pair tested is (k, k + 1). -/
def execRsTrail (s : State) : Out :=
  whenSelected (selRsTrail s) "RS.TRAIL" <|
    andThen (appendRs { bit := false, ts := bitTime s Config.frameBits } s) fun s =>
      .next { s with act := .scan, rsu := { s.rsu with j := s.rsu.k + 1 } }

/-- R153: RS_LEN <- 0; j <- 1. The records an earlier pass left are beyond RS_LEN and unspecified again
(U13). -/
def rsuBegin (s : State) : State :=
  { s with rsLen := 0, rsMem := [], rsEra := s.rsEra + 1, rsu := { s.rsu with j := 1 }, act := .scan }

/-- R153: the body ends when j >= IN_LEN. -/
def rsuDone (s : State) : Bool := s.act == .scan && decide (s.cfg.inLen.toNat ≤ s.rsu.j.toNat)

/-- One micro-operation of the RSU: the one its state and the next input select (R103). -/
def rsuStep (s : State) : Out :=
  if selRsScan s then execRsScan s
  else if selRsStart s then execRsStart s
  else if selRsEdge s then execRsEdge s
  else if selRsFill s then execRsFill s
  else if selRsClip s then execRsClip s
  else if selRsTrail s then execRsTrail s
  else .refused .nothingSelected

/-- The RSU's walk (R163), at most `n` micro-operations. -/
def rsuLoop : Nat → State → Out
  | 0, s => .next s
  | n + 1, s => if rsuDone s then .next s else andThen (rsuStep s) (rsuLoop n)

/-- The whole RSU body (R163). Each input record takes at most four micro-operations (one of RS.SCAN and RS.START, then
RS.EDGE or one of RS.FILL and RS.CLIP, then RS.TRAIL), so the bound is never what ends the walk. -/
def rsuBody (s : State) : Out := rsuLoop (4 * s.cfg.inLen.toNat) (rsuBegin s)

end Sys2Proof.Machine
end

