-- ==== Sys2Proof/Machine/Mdu.lean ====
section
/-! DEFINITION. The Mode Detector's operations (42_mode_detector.md R181 to R184), their selectors, and its body (R187). -/

namespace Sys2Proof.Machine

/-- The gap of the next pair (q - 1, q) of the range (R181). -/
def pairGap (s : State) : Option Nat :=
  if 1 ≤ s.mdu.q ∧ s.mdu.q < s.mdu.stop then inGap s (s.mdu.q - 1) s.mdu.q else none

/-- MD.GAP is selected (R181). -/
def selMdGap (s : State) : Bool := s.act == .mdu && (pairGap s).isSome

/-- MD.CLASSIFY is selected (R184). -/
def selMdClassify (s : State) : Bool := s.act == .mdu && decide (s.mdu.stop ≤ s.mdu.q)

/-- H[dt] <- H[dt] + 1 for a gap longer than 3 ms (R181). -/
def tally (rate dt : Nat) (h : Memory Nat) : Memory Nat :=
  if 3 * rate < 1000 * dt then h.write dt ((h.read dt).getD 0 + 1) else h

/-- The largest count of the histogram. -/
def maxCount (h : Memory Nat) : Nat := h.foldl (fun c e => max c e.2) 0

/-- The most frequent gap values, in rising order (R183). -/
def mostFrequent (h : Memory Nat) : List Nat := (h.filter fun e => e.2 == maxCount h).map Prod.fst

/-- MODE_TIE (R183, R7): which of several equally frequent gap values is G. -/
def breakTie (t : Config.ModeTie) (ties : List Nat) : Nat :=
  match t with
  | .smallest => ties.headD 0
  | .largest => ties.getLastD 0
  | .other => (ties[Config.otherTie ties % ties.length]?).getD 0

/-- G (R183): 0 when no gap was retained. -/
def chosenGap (t : Config.ModeTie) (h : Memory Nat) : Nat := if h.isEmpty then 0 else breakTie t (mostFrequent h)

/-- R184: 1 LOW_SPEED when G is strictly closer to 14 ms than to 7 ms, else 2 HIGH_SPEED. -/
def classify (rate g : Nat) : BitVec 2 :=
  if ((1000 * g : Int) - 14 * rate).natAbs < ((1000 * g : Int) - 7 * rate).natAbs then 1 else 2

/-- MD.GAP (R181). -/
def execMdGap (s : State) : Out :=
  whenSelected (selMdGap s) "MD.GAP" <|
    .next { s with mdu := { s.mdu with
      hist := tally s.cfg.sampleRate.toNat ((pairGap s).getD 0) s.mdu.hist
      q := s.mdu.q + 1 } }

/-- MD.CLASSIFY (R183, R184): the pair (m, g) that the MDU returns. -/
def execMdClassify (s : State) : Out :=
  whenSelected (selMdClassify s) "MD.CLASSIFY" <|
    .next { s with act := .mduDone, mdu := { s.mdu with
      m := classify s.cfg.sampleRate.toNat (chosenGap s.par.modeTie s.mdu.hist)
      g := !s.mdu.hist.isEmpty } }

/-- The start of MDU(a, e) (R187): an empty histogram and the first pair (a, a + 1). -/
def mduBegin (a e : Nat) (s : State) : State :=
  { s with mdu := { q := a + 1, stop := e, hist := [], m := 0, g := false }, act := .mdu }

/-- MD.GAP for each of `n` adjacent pairs (R187). -/
def mduLoop : Nat → State → Out
  | 0, s => .next s
  | n + 1, s => andThen (execMdGap s) (mduLoop n)

/-- The whole MDU body MDU(a, e) (R187): one MD.GAP per adjacent pair, then MD.CLASSIFY. -/
def mduBody (a e : Nat) (s : State) : Out :=
  andThen (mduLoop (e - (a + 1)) (mduBegin a e s)) execMdClassify

/-- MODE_EFF <- m; MODE_FROM_GAPS <- g (R136, R141). -/
def storeMode (s : State) : State := { s with modeEff := s.mdu.m, modeFromGaps := s.mdu.g }

end Sys2Proof.Machine
end

