-- ==== Sys2Proof/Machine/Commands.lean ====
section
/-! DEFINITION. The host commands (40_commands.md R130 to R142). A command is one step: it runs to completion, or to its
exception, before any further host access is served (R131). -/

namespace Sys2Proof.Machine

/-- PRECHECK (R135) in front of a body; `s` is the state after the prologue. -/
def precheck (s : State) (body : Out) : Out := if rateOk s then body else raise .preconditionFailure s

/-- The host has written the IN record at index k. -/
def inWritten (s : State) (k : Nat) : Bool := (s.inMem.read k).isSome

/-- R336, U1 at index k of IN, for a command that reads the records a .. e - 1: a record the host wrote is below 2^63, and
the next record is later and below 2^63 where the command reads the pair or the host wrote both. A record that nothing
has written and no operation reads holds any value (U13) and is asked for nothing (log 8). -/
def inputOkAt (s : State) (a e k : Nat) : Bool :=
  (s.inMem.read k).all (fun r => decide (r.ts.toNat < 2 ^ 63)) &&
    (!(decide (k + 1 < s.cfg.inLen.toNat) && (decide (a ≤ k ∧ k + 1 < e) || (inWritten s k && inWritten s (k + 1)))) ||
      decide ((s.inAt k).ts.toNat < (s.inAt (k + 1)).ts.toNat ∧ (s.inAt (k + 1)).ts.toNat < 2 ^ 63))

/-- The preconditions on IN that the core does not check and outside which the spec claims nothing (R336, R339, U1, U7),
for a command that reads the records a .. e - 1: IN_LEN within IN_CAP, timestamps strictly increasing and below 2^63. -/
def withInput (s : State) (a e : Nat) (body : Out) : Out :=
  if !fits s.par.inCap s.cfg.inLen.toNat then .refused (.capacity .inp)
  else if !(List.range s.cfg.inLen.toNat).all (inputOkAt s a e) then .refused .inputNotIncreasing
  else body

/-- The preconditions on a host-written RS (R338, U4): RS_LEN within RS_CAP, timestamps strictly increasing (below 2^64 by
their width). The FSU reads every record where there is more than one. -/
def withResampled (s : State) (body : Out) : Out :=
  if !fits s.par.rsCap s.rsLen.toNat then .refused (.capacity .rs)
  else if !(List.range (s.rsLen.toNat - 1)).all (fun k => decide ((s.rsAt k).ts.toNat < (s.rsAt (k + 1)).ts.toNat)) then
    .refused .rsNotIncreasing
  else body

/-- The end of a command that ran a unit: the core is idle and DONE is set (R132, R307). -/
def finish (s : State) : State := s.goIdle.epilogue

/-- NOP (R133). -/
def execNop (s : State) : Out := .next s.prologue.epilogue

/-- SRESET (R134). -/
def execSreset (s : State) : Out := .next s.prologue.clearSession.epilogue

/-- The mode part of RUN (R136): the MDU over the whole capture when MODE = 0, the forced mode otherwise. -/
def runMode (s : State) : Out :=
  if s.cfg.mode = 0 then
    andThen (mduBody 0 s.cfg.inLen.toNat s) fun s => .next (storeMode s)
  else .next { s with modeEff := s.cfg.mode, modeFromGaps := false }

/-- RUN (R136). -/
def execRun (s : State) : Out :=
  let s := s.prologue
  precheck s <|
    if s.cfg.mode = 3 then raise .invalidArgument s
    else withInput s 0 s.cfg.inLen.toNat <|
      andThen (runMode { s with inRun := true }) fun s => andThen (rsuBody s) fun s => andThen (fsuBody s) fun s =>
        .next (finish s)

/-- RESAMPLE (R137). -/
def execResample (s : State) : Out :=
  let s := s.prologue
  precheck s <| withInput s 0 s.cfg.inLen.toNat <|
    andThen (rsuBody { s with inRun := false }) fun s => .next (finish s)

/-- FRAME (R138). -/
def execFrame (s : State) : Out :=
  let s := s.prologue
  precheck s <| withResampled s <| andThen (fsuBody { s with inRun := false }) fun s => .next (finish s)

/-- DECODE (R139): no PRECHECK. -/
def execDecode (s : State) : Out :=
  let s := s.prologue
  if s.cfg.fbLen.toNat ≠ Config.frameBytes then raise .invalidArgument s
  else andThen (fdu s) fun s => .next s.epilogue

/-- MODEDET (R141). -/
def execModedet (s : State) : Out :=
  let s := s.prologue
  precheck s <|
    if ¬(s.cfg.rangeStart.toNat ≤ s.cfg.rangeEnd.toNat ∧ s.cfg.rangeEnd.toNat ≤ s.cfg.inLen.toNat) then
      raise .invalidArgument s
    else withInput s s.cfg.rangeStart.toNat s.cfg.rangeEnd.toNat <|
      andThen (mduBody s.cfg.rangeStart.toNat s.cfg.rangeEnd.toNat { s with inRun := false }) fun s =>
        .next (finish (storeMode s))

/-- A reserved command word (R142). -/
def execReservedCommand (w : Word) (s : State) : Out :=
  if cmdZero w ≠ 0 ∨ 7 ≤ (cmdOpcode w).toNat then raise .illegalCommand s.prologue else .refused .illFormed

end Sys2Proof.Machine
end

