-- ==== Sys2Proof/Machine/HostPort.lean ====
section
/-! DEFINITION. The host's reads and writes: the two views LOSSPCT (R32) and NORM (R282), the CSR file (R31), and whole
records (R66). No read changes the machine (R67); a read only leaves its value at the host's port. -/

namespace Sys2Proof.Machine

/-- A host read returns `r`. -/
def State.answer (s : State) (r : Reply) : State := { s with reply := some r }

/-- A host read returns a free value. -/
def State.answerFree (s : State) (f : Nat → Reply) : State :=
  { s with reply := some (f s.draws), draws := s.draws + 1 }

/-- LOSSPCT, a host read of LOSS_PCT (R32): any value 0 .. 127 while LOSS_VALID = 0. -/
def execLosspct (s : State) : Out :=
  if lossValid s then .next (s.answer (.csr ((lossPct s).setWidth 32)))
  else .next (s.answerFree fun d => .csr ((Config.freeLossPct d).setWidth 32))

/-- NORM, a host read of NORMn (R282): sext_32(norm(CH[n])). -/
def execNorm (n : Nat) (s : State) : Out :=
  if 1 ≤ n ∧ n ≤ 18 then .next (s.answer (.csr (BitVec.ofInt 32 (normView (chAt s.dec.ch n).toNat))))
  else .refused .illFormed

/-- The value of every CSR of R31 but the views; none for a number that names no register. -/
def csrValue (s : State) (n : Nat) : Option Word :=
  match n with
  | 0x00 => some 0
  | 0x01 => some (statusWord s)
  | 0x02 => some s.cfg.sampleRate
  | 0x03 => some (configWord s)
  | 0x04 => some s.cfg.inLen
  | 0x05 => some s.cfg.rangeStart
  | 0x06 => some s.cfg.rangeEnd
  | 0x07 => some s.cfg.fbLen
  | 0x08 => some (BitVec.ofNat 32 (spb s))
  | 0x09 => some s.rsLen
  | 0x0A => some (BitVec.ofNat 32 s.ev.length)
  | 0x0B => some (s.progress.setWidth 32)
  | 0x0C => some s.frameCount
  | 0x0D => some s.dec.good
  | 0x0E => some s.dec.lost
  | 0x0F => some s.dec.errors
  | 0x11 => some (s.prevLoss.setWidth 32)
  | 0x12 => some ((BitVec.ofBool s.dec.failsafe).setWidth 32)
  | 0x13 => some (modeResultWord s)
  | n =>
    if 0x20 ≤ n ∧ n < 0x20 + 18 then some ((chAt s.dec.ch (n - 0x20 + 1)).setWidth 32)
    else if 0x60 ≤ n ∧ n < 0x60 + 25 then some ((fbAt s.fb (n - 0x60)).setWidth 32)
    else none

/-- A host write of a CSR other than CMD (R31): a write to a register or field without W is ignored, and so is a write
to a number that names no register (U9). -/
def csrWrite (s : State) (n : Nat) (v : Word) : State :=
  match n with
  | 0x02 => { s with cfg := { s.cfg with sampleRate := v } }
  | 0x03 => { s with cfg := { s.cfg with chIndex := v.extractLsb' 0 3, mode := v.extractLsb' 4 2 } }
  | 0x04 => { s with cfg := { s.cfg with inLen := v } }
  | 0x05 => { s with cfg := { s.cfg with rangeStart := v } }
  | 0x06 => { s with cfg := { s.cfg with rangeEnd := v } }
  | 0x07 => { s with cfg := { s.cfg with fbLen := v } }
  | 0x09 => { s with rsLen := v }
  | n => if 0x60 ≤ n ∧ n < 0x60 + 25 then s.setFb (n - 0x60) (v.setWidth 8) else s

/-- A host access that is no operation of R103 (R31, R66, R67, R330). A read at or beyond the length returns a free value
(U13). A write of an IN or RS record stores it at any 32-bit index, at or beyond IN_CAP or RS_CAP too: the spec gives such
a write no behaviour (U7 speaks of commands), and that it stores is a DESIGN CHOICE (log 25). -/
def plainAccess (s : State) : HostAct → State
  | .writeCsr n v => csrWrite s n v
  | .readCsr n =>
    match csrValue s n with
    | some v => s.answer (.csr v)
    | none => s.answerFree fun d => .csr (Config.freeCsr d)
  | .writeIn k r => { s with inMem := s.inMem.write k.toNat r }
  | .readIn k =>
    if k.toNat < s.cfg.inLen.toNat then s.answer (.inRec (s.inAt k.toNat))
    else s.answerFree fun d => .inRec (Config.freeIn d)
  | .writeRs k r => { s with rsMem := s.rsMem.write k.toNat r }
  | .readRs k =>
    if k.toNat < s.rsLen.toNat then s.answer (.rsRec (s.rsAt k.toNat))
    else s.answerFree fun d => .rsRec (Config.freeRs d)
  | .readEv k =>
    match s.ev[k.toNat]? with
    | some e => s.answer (.evRec e)
    | none => s.answerFree fun d => .evRec (Config.freeEv d)
  | .hardwareReset => s.hardwareReset

end Sys2Proof.Machine
end

