-- ==== Sys2Proof/Machine/Dispatch.lean ====
section
/-! DEFINITION. One arm per operation of R103: the operation's meaning. -/

namespace Sys2Proof.Machine

/-- The effect of an operation on the machine. -/
def exec (i : Instr) (s : State) : Host.Outcome State Fault Refusal :=
  match i with
  | .nop => Sys2Proof.Machine.execNop s
  | .sreset => Sys2Proof.Machine.execSreset s
  | .run => Sys2Proof.Machine.execRun s
  | .resample => Sys2Proof.Machine.execResample s
  | .frame => Sys2Proof.Machine.execFrame s
  | .decode => Sys2Proof.Machine.execDecode s
  | .modedet => Sys2Proof.Machine.execModedet s
  | .reservedCommand w => Sys2Proof.Machine.execReservedCommand w s
  | .rsScan => Sys2Proof.Machine.execRsScan s
  | .rsStart => Sys2Proof.Machine.execRsStart s
  | .rsEdge => Sys2Proof.Machine.execRsEdge s
  | .rsFill => Sys2Proof.Machine.execRsFill s
  | .rsClip => Sys2Proof.Machine.execRsClip s
  | .rsTrail => Sys2Proof.Machine.execRsTrail s
  | .mdGap => Sys2Proof.Machine.execMdGap s
  | .mdClassify => Sys2Proof.Machine.execMdClassify s
  | .frLabel => Sys2Proof.Machine.execFrLabel s
  | .frShift => Sys2Proof.Machine.execFrShift s
  | .frWord => Sys2Proof.Machine.execFrWord s
  | .frFrame => Sys2Proof.Machine.execFrFrame s
  | .frDesync => Sys2Proof.Machine.execFrDesync s
  | .frTail => Sys2Proof.Machine.execFrTail s
  | .decOk => Sys2Proof.Machine.execDecOk s
  | .decErr => Sys2Proof.Machine.execDecErr s
  | .decGood => Sys2Proof.Machine.execDecGood s
  | .decCh1 => Sys2Proof.Machine.execDecCh1 s
  | .decCh2 => Sys2Proof.Machine.execDecCh2 s
  | .decCh3 => Sys2Proof.Machine.execDecCh3 s
  | .decCh4 => Sys2Proof.Machine.execDecCh4 s
  | .decCh5 => Sys2Proof.Machine.execDecCh5 s
  | .decCh6 => Sys2Proof.Machine.execDecCh6 s
  | .decCh7 => Sys2Proof.Machine.execDecCh7 s
  | .decCh8 => Sys2Proof.Machine.execDecCh8 s
  | .decCh9 => Sys2Proof.Machine.execDecCh9 s
  | .decCh10 => Sys2Proof.Machine.execDecCh10 s
  | .decCh11 => Sys2Proof.Machine.execDecCh11 s
  | .decCh12 => Sys2Proof.Machine.execDecCh12 s
  | .decCh13 => Sys2Proof.Machine.execDecCh13 s
  | .decCh14 => Sys2Proof.Machine.execDecCh14 s
  | .decCh15 => Sys2Proof.Machine.execDecCh15 s
  | .decCh16 => Sys2Proof.Machine.execDecCh16 s
  | .decCh17 => Sys2Proof.Machine.execDecCh17 s
  | .decCh18 => Sys2Proof.Machine.execDecCh18 s
  | .decLost => Sys2Proof.Machine.execDecLost s
  | .decFs => Sys2Proof.Machine.execDecFs s
  | .losspct => Sys2Proof.Machine.execLosspct s
  | .norm n => Sys2Proof.Machine.execNorm n s

end Sys2Proof.Machine
end

