-- ==== Sys2Proof/Machine/Sequence.lean ====
section
/-! DEFINITION. How the core goes from one micro-operation to the next inside a command (R8 (b), R103): which operation the
unit's state and its next input select, and the hand-overs of R136 between units. A command runs this sequence to its
end in one step (R131, Commands.lean); here it is taken one micro-operation at a time, for a core that stands between
two of them. -/

namespace Sys2Proof.Machine

/-- The micro-operation that the state selects (R103, column "selected when"). -/
def selectOp (s : State) : Option Instr :=
  match s.act with
  | .idle | .mduDone | .fsuInit => none
  | .mdu => if selMdGap s then some .mdGap else if selMdClassify s then some .mdClassify else none
  | .scan => if selRsScan s then some .rsScan else if selRsStart s then some .rsStart else none
  | .inFrame =>
    if selRsEdge s then some .rsEdge
    else if selRsFill s then some .rsFill
    else if selRsClip s then some .rsClip
    else if selRsTrail s then some .rsTrail
    else none
  | .fsuLabel => some .frLabel
  | .fsuWalk =>
    if selFrShift s then some .frShift
    else if selFrWord s then some .frWord
    else if selFrFrame s then some .frFrame
    else if selFrDesync s then some .frDesync
    else if selFrTail s then some .frTail
    else none
  | .fdu => if frameValid s.fb then some .decOk else some .decErr

/-- What the core does where no micro-operation is selected: a unit hands over to the next one of RUN, or the command
completes (R136 to R141). -/
def advance (s : State) : Out :=
  match s.act with
  | .mduDone => .next (if s.inRun then rsuBegin (storeMode s) else finish (storeMode s))
  | .scan =>
    if rsuDone s then .next (if s.inRun then fsuBegin s else finish s) else .refused .nothingSelected
  | .fsuInit => .next (fsuInit s)
  | .fsuWalk => if fsuDone s then .next (finish s) else .refused .nothingSelected
  | .idle | .mdu | .inFrame | .fsuLabel | .fdu => .refused .nothingSelected

/-- After a micro-operation: the FDU of a DECODE command returns and the command completes (R139); every other
operation says itself where the unit goes on. -/
def afterOp (a : Activity) (o : Out) : Out :=
  if a = .fdu then andThen o fun s => .next (finish s) else o

/-- A host access that is not the reset input, served while the core is idle (R131): an operation of R103 or a plain
read or write. `run` gives an operation its effect. -/
def serve (run : Instr → State → Out) (a : HostAct) (s : State) : Out :=
  match decodeHost a with
  | some i => run i s
  | none => .next (plainAccess s a)

/-- The pending accesses with no reset input in front of the next one. -/
def dropResets : List HostAct → List HostAct
  | .hardwareReset :: l => dropResets l
  | l => l

/-- The host's next access is the write of a command word (R130). -/
def fetchCommand (s : State) (w : Word) : State :=
  { s with act := .idle, inRun := false, host := .writeCsr csrCmd w :: s.host }

/-- A DECODE command has handed the frame `f` to the FDU, which is about to run (R139, R271). -/
def fetchFrame (s : State) (f : BitVec 200) : State :=
  { s with act := .fdu, inRun := false, fb := bytesOfFrame f, host := dropResets s.host }

end Sys2Proof.Machine
end

