-- ==== Sys2Proof/Machine/Step.lean ====
section
/-! DEFINITION. One step of the machine. -/

namespace Sys2Proof.Machine

/-- One micro-operation of a command in progress, or the hand-over that follows the last one of a unit. -/
def coreStep (s : State) : Out :=
  match selectOp s with
  | some i => afterOp s.act (exec i s)
  | none => advance s

/-- One step. The reset input acts at once, whatever the core is doing (R332). Otherwise an idle core serves the host's
next access, a command to its completion (R131), and does nothing while there is none (R331); a core inside a command
takes that command's next micro-operation. -/
def step (s : State) : Host.Outcome State Fault Refusal :=
  match s.host with
  | .hardwareReset :: rest => .next { s with host := rest }.hardwareReset
  | [] => if s.act = .idle then .next s else coreStep s
  | a :: rest => if s.act = .idle then serve exec a { s with host := rest } else coreStep s

/-- `s` about to run the instruction with the bits `w`: a 32-bit row is the word of the host's next CMD write, a 200-bit
row is the frame handed to the FDU. -/
def State.withFetchWord (s : State) (nbits w : Nat) : State :=
  if nbits = 200 then fetchFrame s (BitVec.ofNat 200 w) else fetchCommand s (BitVec.ofNat 32 w)

end Sys2Proof.Machine
end

