-- ==== Sys2Proof/Safety.lean ====
section
/-! DEFINITION. The terms claims are made in: the conditions under which the spec says a command runs, what a decode
leaves, what a run of records looks like, and the invariant every step keeps. -/

namespace Sys2Proof.Machine

/-- The reset input is not the host's next access. -/
abbrev NoReset (s : State) : Prop := s.host.head? ≠ some .hardwareReset

/-- The obligations on IN are met for a command that reads the records a .. e - 1 (R336, R339): IN_LEN within IN_CAP; every
record below IN_LEN that the host wrote has a timestamp below 2^63; the second record of every pair that the command reads
or the host wrote is later than the first, and below 2^63. R336 asks this of every record below IN_LEN: that a record which
the host did not write is asked for nothing outside the pairs the command reads is the model's choice (log 8). -/
abbrev InputReady (s : State) (a e : Nat) : Prop :=
  fits s.par.inCap s.cfg.inLen.toNat = true ∧
  (∀ k, k < s.cfg.inLen.toNat → (s.inMem.read k).all (fun r => decide (r.ts.toNat < 2 ^ 63)) = true) ∧
  ∀ k, k < s.cfg.inLen.toNat → k + 1 < s.cfg.inLen.toNat →
    (a ≤ k ∧ k + 1 < e) ∨ ((s.inMem.read k).isSome = true ∧ (s.inMem.read (k + 1)).isSome = true) →
    (s.inAt k).ts.toNat < (s.inAt (k + 1)).ts.toNat ∧ (s.inAt (k + 1)).ts.toNat < 2 ^ 63

/-- The obligations on IN are met for a command that reads the whole capture. -/
abbrev CaptureReady (s : State) : Prop := InputReady s 0 s.cfg.inLen.toNat

/-- RS is well formed up to RS_LEN (R40, R338), and RS_LEN is within RS_CAP. -/
abbrev ResampledReady (s : State) : Prop :=
  fits s.par.rsCap s.rsLen.toNat = true ∧
  ∀ k, k < s.rsLen.toNat → k + 1 < s.rsLen.toNat → (s.rsAt k).ts.toNat < (s.rsAt (k + 1)).ts.toNat

/-- The frame buffer holds a valid frame (R242). -/
abbrev ValidFrame (fb : Vector Byte 25) : Prop := fbAt fb 0 = 0xF0 ∧ fbAt fb 24 = 0x00

/-- Sample i of a pass and its successor are r and r', and sample i is in sync (R203). -/
abbrev InSyncAt (s : State) (r r' : RsRec) : Prop :=
  s.act = .fsuWalk ∧ s.fsu.i.toNat + 1 < s.rsLen.toNat ∧
  s.rsAt s.fsu.i.toNat = r ∧ s.rsAt (s.fsu.i.toNat + 1) = r' ∧
  r.ts.toNat < r'.ts.toNat ∧ r'.ts.toNat - r.ts.toNat ≤ spb s

/-- The progress value of the step at index i (R218). -/
def stepProgress (s : State) : BitVec 7 := BitVec.ofNat 7 (100 * (s.fsu.i.toNat + 1) / s.rsLen.toNat)

/-- A frame counter that can still count `n` more (R30, R340). -/
abbrev countsLeft (c : Word) (n : Nat) : Prop := c.toNat + n < 2 ^ 32

/-- Wire data bit p of the 176-bit field (R62): bit 7 - (p mod 8) of FB[1 + floor(p / 8)]. -/
def wireBit (fb : Vector Byte 25) (p : Nat) : Bool := (fbAt fb (1 + p / 8)).getLsbD (7 - p % 8)

/-- The operations that write the sixteen analog channels, in the order of the channels (R246 to R261). -/
def analogOps : List Instr :=
  [.decCh1, .decCh2, .decCh3, .decCh4, .decCh5, .decCh6, .decCh7, .decCh8, .decCh9, .decCh10, .decCh11, .decCh12,
    .decCh13, .decCh14, .decCh15, .decCh16]

/-- What a valid frame makes of the decoder state (R271): the sixteen analog channels bit by bit (R267), the two
digital channels, the failsafe flag, GOOD_FRAMES + 1, and LOST_FRAMES + 1 when bit 5 of FB[23] is set. -/
def DecodedBy (fb : Vector Byte 25) (d d' : Decoded) : Prop :=
  (∀ n, 1 ≤ n → n ≤ 16 → ∀ b, b < 11 → (chAt d'.ch n).getLsbD b = wireBit fb (11 * (n - 1) + b)) ∧
  chAt d'.ch 17 = (if (fbAt fb 23).getLsbD 7 then 2047 else 0) ∧
  chAt d'.ch 18 = (if (fbAt fb 23).getLsbD 6 then 2047 else 0) ∧
  d'.failsafe = (fbAt fb 23).getLsbD 4 ∧
  d'.good = d.good + 1 ∧
  d'.lost = (if (fbAt fb 23).getLsbD 5 then d.lost + 1 else d.lost) ∧
  d'.errors = d.errors

/-- Decoding the frame `fb` would take a frame counter of `d` to 2^32 (R245, R264, R243; U6). -/
abbrev DecodeOverflows (fb : Vector Byte 25) (d : Decoded) : Prop :=
  (ValidFrame fb ∧ (d.good = 0xFFFFFFFF ∨ ((fbAt fb 23).getLsbD 5 = true ∧ d.lost = 0xFFFFFFFF))) ∨
  (¬ValidFrame fb ∧ d.errors = 0xFFFFFFFF)

/-- `t` holds, after the records of `s`, n records of level b with the uniform timestamps of R157, and every other RS
record as in `s`. -/
def AppendedBits (s t : State) (b : Bool) (n : Nat) : Prop :=
  t.rsLen.toNat = s.rsLen.toNat + n ∧
  (∀ q, q < n → t.rsAt (s.rsLen.toNat + q) =
    { bit := b, ts := BitVec.ofNat 64 (s.rsu.t0.toNat + (s.rsu.count + q) * spb s) }) ∧
  ∀ a, a < s.rsLen.toNat ∨ s.rsLen.toNat + n ≤ a → t.rsAt a = s.rsAt a

/-- Everything but RS and the RSU's pass registers is as in `s` (R150), after a pass that began by leaving the earlier RS
records unspecified (R153, log 16). -/
def OnlyResampled (s t : State) : Prop :=
  t = { s with rsLen := t.rsLen, rsMem := t.rsMem, rsEra := s.rsEra + 1, rsu := t.rsu }

/-- How many of the at most n micro-operations that the RSU takes from `s` on are RS.START: the frames it detects (R164). -/
def framesStarted : Nat → State → Nat
  | 0, _ => 0
  | n + 1, s =>
    if rsuDone s then 0
    else match rsuStep s with
      | .next t => (if selRsStart s then 1 else 0) + framesStarted n t
      | _ => 0

/-- The frames that an RSU pass over the capture of `s` detects (R164). -/
def framesDetected (s : State) : Nat := framesStarted (4 * s.cfg.inLen.toNat) (rsuBegin s)

/-- The gaps of the range [a, e) of IN that exceed 3 ms, in order (R181). -/
def retainedGaps (s : State) (a e : Nat) : List Nat :=
  (List.range (e - (a + 1))).filterMap fun q =>
    (ticks (s.inAt (a + q)).ts (s.inAt (a + q + 1)).ts).filter fun dt => decide (3 * s.cfg.sampleRate.toNat < 1000 * dt)

/-- What an FSU pass may write (R138); everything else, RS among it, is as in `s`. -/
def OnlyFramed (s t : State) : Prop :=
  t = { s with
    dec := t.dec
    frameCount := t.frameCount
    prevLoss := t.prevLoss
    progress := t.progress
    fb := t.fb
    fsu := t.fsu
    ev := t.ev
    prog := t.prog }

/-- STATUS after a command that raised nothing (R132). -/
def State.completed (s : State) : State :=
  { s with status := { done := true, err := 0, errlog := s.status.errlog }, act := .idle, inRun := false }

/-- The state that a unit body starts from: the command's prologue is done and the unit is about to begin. -/
def started (inRun : Bool) (s : State) : State := { s.prologue with inRun := inRun }

/-- What every state of a run satisfies: memories in canonical form, reserved codes never produced (R101, R104), the
digital channels 0 or 2047 (R20), percentages at most 100 (R32, R33, R42), the FSU's counts in range with the bits of
RAW not yet received 0 (R29, R221), and a command in progress with its prologue's STATUS (R132). -/
structure StateInv (s : State) : Prop where
  inWf : s.inMem.wf = true
  rsWf : s.rsMem.wf = true
  histWf : s.mdu.hist.wf = true
  errCode : s.status.err.toNat ≤ 3
  errlogReserved : s.status.errlog.getLsbD 3 = false
  doneNoErr : s.status.done = true → s.status.err = 0
  busyStatus : s.act ≠ .idle → s.status.done = false ∧ s.status.err = 0
  modeEff : s.modeEff ≠ 3
  mduMode : s.mdu.m ≠ 3
  digital17 : chAt s.dec.ch 17 = 0 ∨ chAt s.dec.ch 17 = 2047
  digital18 : chAt s.dec.ch 18 = 0 ∨ chAt s.dec.ch 18 = 2047
  prevLoss : s.prevLoss.toNat ≤ 100
  progress : s.progress.toNat ≤ 100
  prog : ∀ p ∈ s.prog, p.toNat ≤ 100
  bitcnt : s.fsu.bitcnt.toNat ≤ 11
  bytecnt : s.fsu.bytecnt.toNat ≤ 24
  rawUnreceived : ∀ k, k + s.fsu.bitcnt.toNat < 12 → s.fsu.raw.getLsbD k = false
  count : s.rsu.count ≤ 300

end Sys2Proof.Machine
end

