-- ==== Sys2Proof/Certificates/Slice0/Obligations.lean ====
section
/-! DEFINITION. The statements for the provers. Each docstring names the rule of spec/ the statement comes from. -/

open Sys2Proof Sys2Proof.Machine

-- ---------------------------------------------------------------- encodings

/-- R91, R97: the seven command words, a valid and an error frame, and the two views select their operations. -/
def Obligations.TableWordsSelectTheirOperations : Prop :=
  decodeTableWord 32 0x00000000 = some .nop ∧ decodeTableWord 32 0x00000001 = some .sreset ∧
  decodeTableWord 32 0x00000002 = some .run ∧ decodeTableWord 32 0x00000003 = some .resample ∧
  decodeTableWord 32 0x00000004 = some .frame ∧ decodeTableWord 32 0x00000005 = some .decode ∧
  decodeTableWord 32 0x00000006 = some .modedet ∧
  decodeTableWord 32 0x00000012 = some (.reservedCommand 0x12) ∧
  decodeTableWord 200 (0xF0 * 2 ^ 192 + 0x17C0 * 2 ^ 176) = some .decOk ∧
  decodeTableWord 200 (0x0F * 2 ^ 192) = some .decErr ∧
  decodeHost (.readCsr 0x10) = some .losspct ∧ decodeHost (.readCsr 0x51) = some (.norm 18)

/-- Every well-formed operation that a host access selects is what its own access decodes to. -/
def Obligations.EncodedOperationsDecodeBack : Prop :=
  ∀ (i : Instr) (a : HostAct), i.wellFormed = true → encode i = some a → decodeHost a = some i

/-- Every host access that decodes to an operation is the encoding of that operation, which is well formed: no two
accesses select the same operation and no bit of a command word is dropped. -/
def Obligations.DecodedAccessesEncodeBack : Prop :=
  ∀ (a : HostAct) (i : Instr), decodeHost a = some i → i.wellFormed = true ∧ encode i = some a

/-- R242: a frame is valid when FB[0] = 0xF0 and FB[24] = 0x00, and no other byte takes part. -/
def Obligations.OnlyStartAndEndBytesValidate : Prop :=
  ∀ fb : Vector Byte 25,
    (decodeFrame (frameOfBytes fb) = .decOk ↔ fbAt fb 0 = 0xF0 ∧ fbAt fb 24 = 0x00) ∧
    (decodeFrame (frameOfBytes fb) = .decErr ↔ ¬(fbAt fb 0 = 0xF0 ∧ fbAt fb 24 = 0x00))

/-- R92, R93, R97, R101: the packed records drop no bit, the 200-bit frame and the 25 bytes determine each other, FB[0] in
the high bits, and the 2-bit field KIND and the four kinds of event do, with the codes of R101. -/
def Obligations.PackedFormatsRoundTrip : Prop :=
  (∀ r : InRec, unpackIn (packIn r) = r) ∧ (∀ w : BitVec 72, packIn (unpackIn w) = w) ∧
  (∀ r : RsRec, unpackRs (packRs r) = r) ∧ (∀ w : BitVec 65, packRs (unpackRs w) = w) ∧
  (∀ fb : Vector Byte 25, bytesOfFrame (frameOfBytes fb) = fb) ∧
  (∀ f : BitVec 200, frameOfBytes (bytesOfFrame f) = f) ∧
  (∀ (fb : Vector Byte 25) (k : Nat), k < 25 → fbAt fb k = (frameOfBytes fb).extractLsb' (192 - 8 * k) 8) ∧
  (∀ k : EvKind, kindOf (kindCode k) = k) ∧ (∀ c : BitVec 2, kindCode (kindOf c) = c) ∧
  kindCode .label = 0 ∧ kindCode .byte = 1 ∧ kindCode .frameDecoded = 2 ∧ kindCode .frameLost = 3

/-- R12: reversal sends bit k to bit N - 1 - k and is its own inverse. -/
def Obligations.ReversalIsSelfInverse : Prop :=
  ∀ (n : Nat) (x : BitVec n), rev (rev x) = x ∧ ∀ k, k < n → (rev x).getLsbD k = x.getLsbD (n - 1 - k)

-- ---------------------------------------------------------------- the step

/-- Between commands, an access that decodes to an operation runs exactly that operation, on the state without the
access. That a command is one step is the model's form of R131 (log 2), and that the host's accesses are a list the step
serves is the model's choice (log 1). -/
def Obligations.StepRunsTheDecodedAccess : Prop :=
  ∀ (s : State) (a : HostAct) (rest : List HostAct) (i : Instr),
    s.act = .idle → s.host = a :: rest → decodeHost a = some i → step s = exec i { s with host := rest }

/-- Inside a command, a step runs exactly the selected micro-operation; after the FDU of a DECODE command the command
completes. That the core can stand between two of them is the model's choice (log 14). -/
def Obligations.StepRunsTheSelectedOperation : Prop :=
  ∀ (s : State) (i : Instr), NoReset s → selectOp s = some i →
    (s.act ≠ .fdu → step s = exec i s) ∧
    (s.act = .fdu → ∀ t, exec i s = .next t →
      step s = .next { t with status := { t.status with done := true }, act := .idle, inRun := false })

/-- R331: after hardware reset every stored register and field is 0, the lengths are 0, PROG is empty, STATUS reads 0, and
the core does nothing while the host makes no access. -/
def Obligations.HardwareResetClearsEverything : Prop :=
  ∀ p : Config.Params,
    let s := State.resetWith p
    (s.cfg.sampleRate = 0 ∧ s.cfg.chIndex = 0 ∧ s.cfg.mode = 0 ∧ s.cfg.inLen = 0 ∧ s.cfg.rangeStart = 0 ∧
      s.cfg.rangeEnd = 0 ∧ s.cfg.fbLen = 0) ∧
    (∀ n, 1 ≤ n → n ≤ 18 → chAt s.dec.ch n = 0) ∧ s.dec.failsafe = false ∧
    (s.dec.good = 0 ∧ s.dec.lost = 0 ∧ s.dec.errors = 0 ∧ s.frameCount = 0 ∧ s.prevLoss = 0 ∧ s.progress = 0) ∧
    (s.status.done = false ∧ s.status.err = 0 ∧ s.status.errlog = 0) ∧
    (s.modeEff = 0 ∧ s.modeFromGaps = false) ∧ (∀ k, k < 25 → fbAt s.fb k = 0) ∧
    (s.fsu.raw = 0 ∧ s.fsu.bitcnt = 0 ∧ s.fsu.bytecnt = 0 ∧ s.fsu.byteStart = 0 ∧ s.fsu.frameStart = 0) ∧
    (s.rsLen = 0 ∧ s.ev = [] ∧ s.prog = []) ∧
    statusWord s = 0 ∧ step s = .next s

/-- R332: the reset input ends whatever the core is doing, and leaves the state of R331, the IN and RS records unspecified
again (log 7). The values of the RSU's and MDU's registers in it, and what is kept, are the model's choice (logs 12 and
15). -/
def Obligations.HardwareResetActsInAnyState : Prop :=
  ∀ (s : State) (rest : List HostAct), s.host = .hardwareReset :: rest →
    step s = .next { State.resetWith s.par with
      host := rest, draws := s.draws, inEra := s.inEra + 1, rsEra := s.rsEra + 1 }

-- ---------------------------------------------------------------- commands without a unit, exceptions

/-- R133: NOP sets DONE, clears ERR, and changes nothing else. -/
def Obligations.NopChangesOnlyStatus : Prop :=
  ∀ s : State, exec .nop s = .next { s with status := { done := true, err := 0, errlog := s.status.errlog } }

/-- R134: SRESET clears session and pass state and keeps the configuration and the IN records, written or not.
That it clears the RSU's and MDU's registers, drops the RS records and keeps PROG is the model's choice (logs 12, 16
and 17). -/
def Obligations.SresetKeepsOnlyConfigurationAndInput : Prop :=
  ∀ s : State, exec .sreset s = .next
    { State.resetWith s.par with
      cfg := s.cfg, inMem := s.inMem, inEra := s.inEra, rsEra := s.rsEra + 1, prog := s.prog, act := s.act, inRun := s.inRun, host := s.host, reply := s.reply,
      draws := s.draws, status := { done := true, err := 0, errlog := 0 } }

/-- R142, R296: a reserved command word raises IllegalCommand and changes nothing but STATUS. -/
def Obligations.ReservedWordRaisesIllegalCommand : Prop :=
  ∀ (w : Word) (s : State), (7 ≤ (w.extractLsb' 0 4).toNat ∨ w.extractLsb' 4 28 ≠ 0) →
    exec (decodeCmd w) s =
      .next { s with status := { done := false, err := 3, errlog := s.status.errlog ||| 0b0100 } }

/-- R291, R297: with SAMPLE_RATE below 200000 RUN, RESAMPLE, FRAME and MODEDET raise PreconditionFailure, whatever else is
wrong, and change nothing but STATUS. -/
def Obligations.LowSampleRateRaisesPreconditionFailure : Prop :=
  ∀ (s : State) (i : Instr), i ∈ [Instr.run, .resample, .frame, .modedet] → s.cfg.sampleRate.toNat < 200000 →
    exec i s = .next { s with status := { done := false, err := 1, errlog := s.status.errlog ||| 0b0001 } }

/-- R292, R293: DECODE with FB_LEN other than 25, RUN with MODE 3, and MODEDET with a range that is not
RANGE_START <= RANGE_END <= IN_LEN raise InvalidArgument and change nothing but STATUS. -/
def Obligations.BadArgumentsRaiseInvalidArgument : Prop :=
  ∀ s : State,
    let t : State := { s with status := { done := false, err := 2, errlog := s.status.errlog ||| 0b0010 } }
    (s.cfg.fbLen ≠ 25 → exec .decode s = .next t) ∧
    (200000 ≤ s.cfg.sampleRate.toNat → s.cfg.mode = 3 → exec .run s = .next t) ∧
    (200000 ≤ s.cfg.sampleRate.toNat →
      (s.cfg.rangeEnd.toNat < s.cfg.rangeStart.toNat ∨ s.cfg.inLen.toNat < s.cfg.rangeEnd.toNat) →
      exec .modedet s = .next t)

/-- R296: a command that raises leaves everything but STATUS as it was, with DONE 0, one of the three codes in ERR and
that code's bit added to ERRLOG. -/
def Obligations.ExceptionsArePrecise : Prop :=
  ∀ (w : Word) (s t : State), exec (decodeCmd w) s = .next t → t.status.err ≠ 0 →
    t = { s with status := t.status } ∧ t.status.done = false ∧
    ∃ c, 1 ≤ c ∧ c ≤ 3 ∧ t.status.err = BitVec.ofNat 4 c ∧
      t.status.errlog = s.status.errlog ||| BitVec.ofNat 4 (2 ^ (c - 1))

-- ---------------------------------------------------------------- frame decoder

/-- R267: each of DEC.CH1 .. DEC.CH16 writes its own channel with the reversed window of the general form, and nothing
else. -/
def Obligations.AnalogChannelsFollowTheWindows : Prop :=
  ∀ (s : State) (n : Nat) (i : Instr), ValidFrame s.fb →
    analogOps[n]? = some i →
    let o := 11 * n
    let a := 1 + o / 8
    let r := o % 8
    ∃ v : Chan,
      exec i s = .next { s with dec := { s.dec with ch := s.dec.ch.setIfInBounds n v } } ∧
      v = (BitVec.ofNat 11 (((fbAt s.fb a).toNat <<< 16 ||| (fbAt s.fb (a + 1)).toNat <<< 8 |||
        (fbAt s.fb (a + 2)).toNat) >>> (13 - r) &&& 0x7FF)).reverse ∧
      ∀ b, b < 11 → v.getLsbD b = (fbAt s.fb (1 + (o + b) / 8)).getLsbD (7 - (o + b) % 8)

/-- R262, R263, R245, R264, R265: the operations on the flag byte FB[23] and the count of good frames, each with its
whole effect. -/
def Obligations.FlagByteOperations : Prop :=
  ∀ s : State, ValidFrame s.fb →
    exec .decCh17 s = .next { s with dec := { s.dec with
      ch := s.dec.ch.setIfInBounds 16 (if (fbAt s.fb 23).getLsbD 7 then 2047 else 0) } } ∧
    exec .decCh18 s = .next { s with dec := { s.dec with
      ch := s.dec.ch.setIfInBounds 17 (if (fbAt s.fb 23).getLsbD 6 then 2047 else 0) } } ∧
    (countsLeft s.dec.good 1 →
      exec .decGood s = .next { s with dec := { s.dec with good := s.dec.good + 1 } }) ∧
    (countsLeft s.dec.lost 1 → (fbAt s.fb 23).getLsbD 5 = true →
      exec .decLost s = .next { s with dec := { s.dec with lost := s.dec.lost + 1 } }) ∧
    exec .decFs s = .next { s with dec := { s.dec with failsafe := (fbAt s.fb 23).getLsbD 4 } }

/-- R243, R244, R271: DEC.OK makes of the decoder state what R271 says, for every valid frame, and changes nothing else;
DEC.ERR increments ERROR_FRAMES by one and changes nothing else. -/
def Obligations.FramesAreDecodedOrCounted : Prop :=
  ∀ s : State,
    (ValidFrame s.fb → countsLeft s.dec.good 1 → ((fbAt s.fb 23).getLsbD 5 = true → countsLeft s.dec.lost 1) →
      ∃ d, DecodedBy s.fb s.dec d ∧ exec .decOk s = .next { s with dec := d }) ∧
    (¬ValidFrame s.fb → countsLeft s.dec.errors 1 →
      exec .decErr s = .next { s with dec := { s.dec with errors := s.dec.errors + 1 } })

/-- R139: DECODE with FB_LEN = 25 runs the FDU on FB and changes nothing but STATUS and the decoder state; no PRECHECK. -/
def Obligations.DecodeCommandDecodesTheBuffer : Prop :=
  ∀ s : State, s.cfg.fbLen = 25 →
    (ValidFrame s.fb → countsLeft s.dec.good 1 → ((fbAt s.fb 23).getLsbD 5 = true → countsLeft s.dec.lost 1) →
      ∃ d, DecodedBy s.fb s.dec d ∧ exec .decode s =
        .next { s with status := { done := true, err := 0, errlog := s.status.errlog }, dec := d }) ∧
    (¬ValidFrame s.fb → countsLeft s.dec.errors 1 →
      exec .decode s = .next { s with
        status := { done := true, err := 0, errlog := s.status.errlog }
        dec := { s.dec with errors := s.dec.errors + 1 } })

/-- R272: after DEC.OK the eighteen channels and the failsafe flag are a function of FB alone, whatever the earlier state. -/
def Obligations.DecodingIsPure : Prop :=
  ∀ s s' t t' : State, s.fb = s'.fb → exec .decOk s = .next t → exec .decOk s' = .next t' →
    t.dec.ch = t'.dec.ch ∧ t.dec.failsafe = t'.dec.failsafe

/-- R273: every sixteen channel values are those of exactly one data field FB[1] .. FB[22]. -/
def Obligations.ChannelMapIsBijective : Prop :=
  (∀ chs : Vector Chan 16, ∃ fb : Vector Byte 25, ValidFrame fb ∧ ∀ s t, s.fb = fb → exec .decOk s = .next t →
    ∀ n, 1 ≤ n → n ≤ 16 → chAt t.dec.ch n = (chs[n - 1]?).getD 0) ∧
  ∀ s s' t t' : State, exec .decOk s = .next t → exec .decOk s' = .next t' →
    (∀ n, 1 ≤ n → n ≤ 16 → chAt t.dec.ch n = chAt t'.dec.ch n) →
    ∀ k, 1 ≤ k → k ≤ 22 → fbAt s.fb k = fbAt s'.fb k

-- ---------------------------------------------------------------- views and host accesses

/-- R32: a read of LOSS_PCT returns the truncated percentage, at most 100, when LOSS_VALID = 1, and some value of 0 .. 127
otherwise. Nothing but the host's port changes, and, where the value is open, the model's count of drawn values, which is
the model's choice (log 5). -/
def Obligations.LossPercentageView : Prop :=
  ∀ s : State,
    let g := s.dec.good.toNat
    let l := s.dec.lost.toNat
    let e := s.dec.errors.toNat
    (g + l + e ≠ 0 → ∃ v : Word, v.toNat = (l + e) * 100 / (g + l + e) ∧ v.toNat ≤ 100 ∧
      exec .losspct s = .next { s with reply := some (.csr v) }) ∧
    (g + l + e = 0 → ∃ v : Word, v.toNat ≤ 127 ∧
      exec .losspct s = .next { s with reply := some (.csr v), draws := s.draws + 1 })

/-- R280 (b): the loss percentage does not decrease as lost and error frames accumulate with the good frames fixed. -/
def Obligations.LossPercentageIsMonotone : Prop :=
  ∀ g l e l' e' : Nat, 0 < g + l + e → l ≤ l' → e ≤ e' → lossPercent g l e ≤ lossPercent g l' e'

/-- R282: a read of NORMn returns floor((50 c + 248) / 496) - 100 of CH[n] as a signed 32-bit number between -100 and 106;
nothing but the host's port changes, and the function does not decrease. -/
def Obligations.NormalisedView : Prop :=
  (∀ (s : State) (n : Nat), 1 ≤ n → n ≤ 18 → ∃ v : Word,
    v.toInt = ((50 * (chAt s.dec.ch n).toNat + 248) / 496 : Nat) - (100 : Int) ∧ -100 ≤ v.toInt ∧ v.toInt ≤ 106 ∧
    exec (.norm n) s = .next { s with reply := some (.csr v) }) ∧
  (∀ c c' : Nat, c ≤ c' → normView c ≤ normView c') ∧ normView 0 = -100 ∧ normView 124 = -87 ∧ normView 2047 = 106

/-- R31: what a host read of each register returns. -/
def Obligations.CsrReadsReturnTheRegisters : Prop :=
  ∀ (s : State) (n : Nat) (rest : List HostAct), s.act = .idle → s.host = .readCsr n :: rest →
    let returns := fun v : Nat => ∃ w : Word, w.toNat = v ∧
      step s = .next { s with host := rest, reply := some (.csr w) }
    (n = 0x00 → returns 0) ∧
    (n = 0x01 → returns (s.status.done.toNat
      + 2 * (if s.dec.good.toNat + s.dec.lost.toNat + s.dec.errors.toNat = 0 then 0 else 1)
      + 16 * s.status.err.toNat + 256 * s.status.errlog.toNat)) ∧
    (n = 0x02 → returns s.cfg.sampleRate.toNat) ∧
    (n = 0x03 → returns (s.cfg.chIndex.toNat + 16 * s.cfg.mode.toNat)) ∧
    (n = 0x04 → returns s.cfg.inLen.toNat) ∧
    (n = 0x05 → returns s.cfg.rangeStart.toNat) ∧
    (n = 0x06 → returns s.cfg.rangeEnd.toNat) ∧
    (n = 0x07 → returns s.cfg.fbLen.toNat) ∧
    (n = 0x08 → returns ((s.cfg.sampleRate.toNat + 50000) / 100000)) ∧
    (n = 0x09 → returns s.rsLen.toNat) ∧
    (n = 0x0A → s.ev.length < 2 ^ 32 → returns s.ev.length) ∧
    (n = 0x0B → returns s.progress.toNat) ∧
    (n = 0x0C → returns s.frameCount.toNat) ∧
    (n = 0x0D → returns s.dec.good.toNat) ∧
    (n = 0x0E → returns s.dec.lost.toNat) ∧
    (n = 0x0F → returns s.dec.errors.toNat) ∧
    (n = 0x11 → returns s.prevLoss.toNat) ∧
    (n = 0x12 → returns s.dec.failsafe.toNat) ∧
    (n = 0x13 → returns (s.modeEff.toNat + 256 * s.modeFromGaps.toNat)) ∧
    (∀ k, 1 ≤ k → k ≤ 18 → n = 0x20 + (k - 1) → returns (chAt s.dec.ch k).toNat) ∧
    (∀ k, k < 25 → n = 0x60 + k → returns (fbAt s.fb k).toNat)

/-- R31: a host write stores the writable fields of a writable register and nothing else; a write to any other number but
CMD changes nothing, which for a number that names no register is the model's choice (log 6). -/
def Obligations.CsrWritesStoreOnlyWritableFields : Prop :=
  ∀ (s : State) (n : Nat) (v : Word) (rest : List HostAct), s.act = .idle → s.host = .writeCsr n v :: rest →
    let t : State := { s with host := rest }
    (n = 0x02 → step s = .next { t with cfg := { s.cfg with sampleRate := v } }) ∧
    (n = 0x03 → step s = .next { t with cfg := { s.cfg with
      chIndex := BitVec.ofNat 3 v.toNat, mode := BitVec.ofNat 2 (v.toNat / 16) } }) ∧
    (n = 0x04 → step s = .next { t with cfg := { s.cfg with inLen := v } }) ∧
    (n = 0x05 → step s = .next { t with cfg := { s.cfg with rangeStart := v } }) ∧
    (n = 0x06 → step s = .next { t with cfg := { s.cfg with rangeEnd := v } }) ∧
    (n = 0x07 → step s = .next { t with cfg := { s.cfg with fbLen := v } }) ∧
    (n = 0x09 → step s = .next { t with rsLen := v }) ∧
    (∀ k, k < 25 → n = 0x60 + k →
      step s = .next { t with fb := s.fb.setIfInBounds k (BitVec.ofNat 8 v.toNat) }) ∧
    (n ∉ [0x00, 0x02, 0x03, 0x04, 0x05, 0x06, 0x07, 0x09] → ¬(0x60 ≤ n ∧ n < 0x60 + 25) → step s = .next t)

/-- R66, R14: a host write of a record changes that record and no other, and nothing else of the machine. That it does so
at an index at or beyond IN_CAP or RS_CAP too is the model's choice (log 25). -/
def Obligations.HostRecordWritesChangeOneRecord : Prop :=
  ∀ (s : State) (k : Word) (rest : List HostAct), s.act = .idle →
    (∀ r : InRec, s.host = .writeIn k r :: rest →
      ∃ t, step s = .next t ∧ t = { s with host := rest, inMem := t.inMem } ∧
        ∀ a, t.inAt a = if a = k.toNat then r else s.inAt a) ∧
    ∀ r : RsRec, s.host = .writeRs k r :: rest →
      ∃ t, step s = .next t ∧ t = { s with host := rest, rsMem := t.rsMem } ∧
        ∀ a, t.rsAt a = if a = k.toNat then r else s.rsAt a

/-- R66, R67: a host read of a record below the length returns the record, whether or not anything has written it (log 7).
Every host read changes nothing but the host's port and the model's count of drawn values (log 5). -/
def Obligations.HostReadsHaveNoSideEffect : Prop :=
  ∀ (s : State) (k : Word) (rest : List HostAct), s.act = .idle →
    (s.host = .readIn k :: rest → k.toNat < s.cfg.inLen.toNat →
      step s = .next { s with host := rest, reply := some (.inRec (s.inAt k.toNat)) }) ∧
    (s.host = .readRs k :: rest → k.toNat < s.rsLen.toNat →
      step s = .next { s with host := rest, reply := some (.rsRec (s.rsAt k.toNat)) }) ∧
    (∀ e, s.host = .readEv k :: rest → s.ev[k.toNat]? = some e →
      step s = .next { s with host := rest, reply := some (.evRec e) }) ∧
    ∀ (a : HostAct), (a = .readIn k ∨ a = .readRs k ∨ a = .readEv k ∨ ∃ n, a = .readCsr n) → s.host = a :: rest →
      ∃ (r : Reply) (d : Nat), step s = .next { s with host := rest, reply := some r, draws := d } ∧
        s.draws ≤ d ∧ d ≤ s.draws + 1

-- ---------------------------------------------------------------- bit resampler

/-- R13: rnd is the nearest integer, a tie going up: rnd(dt, s) = n exactly when (2n - 1) s <= 2 dt < (2n + 1) s. -/
def Obligations.RoundingGoesToNearestTiesUp : Prop :=
  ∀ dt p n : Nat, 1 ≤ p → (rnd dt p = n ↔ 2 * n * p ≤ 2 * dt + p ∧ 2 * dt < (2 * n + 1) * p)

/-- R154, R155: while scanning, a gap of at most FRAME_GAP advances j and writes nothing else; a longer one starts a frame
at record j. -/
def Obligations.ScanningFindsFrameStarts : Prop :=
  ∀ (s : State) (a b : InRec), s.act = .scan → 1 ≤ s.rsu.j.toNat → s.rsu.j.toNat < s.cfg.inLen.toNat →
    s.inAt (s.rsu.j.toNat - 1) = a → s.inAt s.rsu.j.toNat = b → a.ts.toNat < b.ts.toNat →
    (b.ts.toNat - a.ts.toNat ≤ 300 * spb s →
      exec .rsScan s = .next { s with rsu := { s.rsu with j := s.rsu.j + 1 } }) ∧
    (300 * spb s < b.ts.toNat - a.ts.toNat →
      exec .rsStart s = .next { s with
        act := .inFrame
        rsu := { s.rsu with t0 := b.ts, count := 0, k := s.rsu.j, clipped := false } })

/-- R156: RS.EDGE appends the rounded number of bits of the observed level, clamped to 300 in all. -/
def Obligations.EdgeExpandsItsLevel : Prop :=
  ∀ (s : State) (a b : InRec), s.act = .inFrame → s.rsu.count < 300 → s.rsu.k.toNat + 1 < s.cfg.inLen.toNat →
    s.inAt s.rsu.k.toNat = a → s.inAt (s.rsu.k.toNat + 1) = b → a.ts.toNat < b.ts.toNat →
    b.ts.toNat - a.ts.toNat ≤ 300 * spb s →
    let dt := b.ts.toNat - a.ts.toNat
    let n := min ((2 * dt + spb s) / (2 * spb s)) (300 - s.rsu.count)
    (n = 0 ∨ fits s.par.rsCap (s.rsLen.toNat + n) = true) →
    ∃ t, exec .rsEdge s = .next t ∧
      AppendedBits s t (!a.level.getLsbD s.cfg.chIndex.toNat) n ∧
      t = { s with
        rsLen := t.rsLen
        rsMem := t.rsMem
        rsu := { s.rsu with count := s.rsu.count + n, k := s.rsu.k + 1 } }

/-- R158, R159: the residual of a frame up to 300 bits has the level of the last sample where the frame ends at a gap
(RS.FILL), and is zero where the capture ends (RS.CLIP). -/
def Obligations.ResidualsPadToThreeHundred : Prop :=
  ∀ s : State, s.act = .inFrame → s.rsu.count < 300 →
    fits s.par.rsCap (s.rsLen.toNat + (300 - s.rsu.count)) = true →
    (∀ a b : InRec, s.rsu.k.toNat + 1 < s.cfg.inLen.toNat →
      s.inAt s.rsu.k.toNat = a → s.inAt (s.rsu.k.toNat + 1) = b →
      300 * spb s < b.ts.toNat - a.ts.toNat →
      ∃ t, exec .rsFill s = .next t ∧
        AppendedBits s t (!a.level.getLsbD s.cfg.chIndex.toNat) (300 - s.rsu.count) ∧
        t = { s with rsLen := t.rsLen, rsMem := t.rsMem, rsu := { s.rsu with count := 300 } }) ∧
    (s.cfg.inLen.toNat ≤ s.rsu.k.toNat + 1 →
      ∃ t, exec .rsClip s = .next t ∧ AppendedBits s t false (300 - s.rsu.count) ∧
        t = { s with rsLen := t.rsLen, rsMem := t.rsMem, rsu := { s.rsu with count := 300, clipped := true } })

/-- R160: RS.TRAIL appends one record of level 0 one bit period after bit 299, and scanning resumes at (k, k + 1). -/
def Obligations.TrailMarksTheFrameEnd : Prop :=
  ∀ s : State, s.act = .inFrame → s.rsu.count = 300 → fits s.par.rsCap (s.rsLen.toNat + 1) = true →
    ∃ t, exec .rsTrail s = .next t ∧ AppendedBits s t false 1 ∧
      t = { s with rsLen := t.rsLen, rsMem := t.rsMem, act := .scan, rsu := { s.rsu with j := s.rsu.k + 1 } }

/-- R103 (RSU rows), R153: while records remain, the RSU's state and its next input select exactly one micro-operation. -/
def Obligations.ResamplerSelectsOneOperation : Prop :=
  ∀ s : State, s.rsu.count ≤ 300 →
    (∀ a b, s.act = .scan → 1 ≤ s.rsu.j.toNat → s.rsu.j.toNat < s.cfg.inLen.toNat →
      s.inAt (s.rsu.j.toNat - 1) = a → s.inAt s.rsu.j.toNat = b → a.ts.toNat < b.ts.toNat →
      selectOp s = some (if b.ts.toNat - a.ts.toNat ≤ 300 * spb s then .rsScan else .rsStart)) ∧
    (s.act = .inFrame → s.rsu.count = 300 → selectOp s = some .rsTrail) ∧
    (s.act = .inFrame → s.rsu.count < 300 → s.cfg.inLen.toNat ≤ s.rsu.k.toNat + 1 → selectOp s = some .rsClip) ∧
    (∀ a b, s.act = .inFrame → s.rsu.count < 300 → s.rsu.k.toNat + 1 < s.cfg.inLen.toNat →
      s.inAt s.rsu.k.toNat = a → s.inAt (s.rsu.k.toNat + 1) = b → a.ts.toNat < b.ts.toNat →
      selectOp s = some (if b.ts.toNat - a.ts.toNat ≤ 300 * spb s then .rsEdge else .rsFill))

/-- R137, R164, R165: RESAMPLE completes on every capture that meets the host's obligations; RS holds, well formed, 301
records for each frame the RSU detects, that is for each RS.START of its walk, of which there is none exactly when no two
neighbouring samples are further apart than FRAME_GAP; and nothing but RS, the RSU's registers and STATUS changes. The room
asked of RS is that of R339, 301 records for each frame. That IN_LEN = 1 with record 0 never written, which R336 asks to
be below 2^63, is asked for nothing is the model's choice (log 8). -/
def Obligations.ResampleCompletes : Prop :=
  ∀ s : State, 200000 ≤ s.cfg.sampleRate.toNat → CaptureReady s →
    fits s.par.rsCap (301 * framesDetected s) = true →
    ∃ t : State, exec .resample s = .next t ∧ OnlyResampled s.completed t ∧ ResampledReady t ∧
      t.rsLen.toNat = 301 * framesDetected s ∧ framesDetected s ≤ s.cfg.inLen.toNat ∧
      (framesDetected s = 0 ↔ ∀ k, k + 1 < s.cfg.inLen.toNat →
        (s.inAt (k + 1)).ts.toNat - (s.inAt k).ts.toNat ≤ 300 * spb s)

-- ---------------------------------------------------------------- mode detector

/-- R181: MD.GAP counts the gap when it exceeds 3 ms and goes on to the next pair. -/
def Obligations.LongGapsAreTallied : Prop :=
  ∀ (s : State) (a b : InRec), s.act = .mdu → 1 ≤ s.mdu.q → s.mdu.q < s.mdu.stop →
    s.inAt (s.mdu.q - 1) = a → s.inAt s.mdu.q = b → a.ts.toNat < b.ts.toNat →
    let dt := b.ts.toNat - a.ts.toNat
    ∃ h, exec .mdGap s = .next { s with mdu := { s.mdu with q := s.mdu.q + 1, hist := h } } ∧
      (¬(1000 * dt > 3 * s.cfg.sampleRate.toNat) → h = s.mdu.hist) ∧
      (1000 * dt > 3 * s.cfg.sampleRate.toNat →
        h.read dt = some ((s.mdu.hist.read dt).getD 0 + 1) ∧ ∀ x, x ≠ dt → h.read x = s.mdu.hist.read x)

/-- R183 to R185: MD.CLASSIFY takes a most frequent gap value (the smallest, or the largest, of several when MODE_TIE says
so; 0 when there is none) and answers LOW_SPEED when it is strictly closer to 14 ms than to 7 ms, which is when it is
longer than 10.5 ms. -/
def Obligations.ClassificationFollowsTheMostFrequentGap : Prop :=
  ∀ s : State, s.act = .mdu → s.mdu.stop ≤ s.mdu.q → s.mdu.hist.wf = true →
    ∃ g : Nat,
      exec .mdClassify s = .next { s with
        act := .mduDone
        mdu := { s.mdu with
          m := if |(1000 * g : Int) - 14 * s.cfg.sampleRate.toNat| < |(1000 * g : Int) - 7 * s.cfg.sampleRate.toNat|
            then 1 else 2
          g := decide (s.mdu.hist ≠ []) } } ∧
      (0 < s.cfg.sampleRate.toNat →
        (|(1000 * g : Int) - 14 * s.cfg.sampleRate.toNat| < |(1000 * g : Int) - 7 * s.cfg.sampleRate.toNat| ↔
          2000 * g > 21 * s.cfg.sampleRate.toNat)) ∧
      (s.mdu.hist = [] → g = 0) ∧
      (s.mdu.hist ≠ [] → ∃ c, s.mdu.hist.read g = some c ∧ ∀ x c', s.mdu.hist.read x = some c' →
        c' ≤ c ∧ (c' = c → s.par.modeTie = .smallest → g ≤ x) ∧ (c' = c → s.par.modeTie = .largest → x ≤ g))

/-- R141, R187: MODEDET completes on every range of a capture that meets the host's obligations. R336 and U1 state them over
every record below IN_LEN; that a record which the host did not write is asked for nothing outside the pairs of the range,
so that MODEDET completes beside it, is the model's choice (log 8, unsafe). Where it completes, MODE_RESULT is the
classification of the most frequent of the retained gaps of the range, HIGH_SPEED when there is none. -/
def Obligations.ModeDetectionClassifiesTheRange : Prop :=
  ∀ s : State, 200000 ≤ s.cfg.sampleRate.toNat → s.cfg.rangeStart.toNat ≤ s.cfg.rangeEnd.toNat →
    s.cfg.rangeEnd.toNat ≤ s.cfg.inLen.toNat → InputReady s s.cfg.rangeStart.toNat s.cfg.rangeEnd.toNat →
    let gaps := retainedGaps s s.cfg.rangeStart.toNat s.cfg.rangeEnd.toNat
    ∃ t, exec .modedet s = .next t ∧
      t = { s.completed with modeEff := t.modeEff, modeFromGaps := t.modeFromGaps, mdu := t.mdu } ∧
      (gaps = [] → t.modeEff = 2 ∧ t.modeFromGaps = false) ∧
      (gaps ≠ [] → t.modeFromGaps = true ∧ ∃ g ∈ gaps,
        t.modeEff = (if 2000 * g > 21 * s.cfg.sampleRate.toNat then 1 else 2) ∧
        ∀ x ∈ gaps, gaps.count x ≤ gaps.count g ∧
          (gaps.count x = gaps.count g → s.par.modeTie = .smallest → g ≤ x) ∧
          (gaps.count x = gaps.count g → s.par.modeTie = .largest → x ≤ g))

-- ---------------------------------------------------------------- frame synchronizer

/-- R201: FR.LABEL appends one LABEL event that carries only the line. -/
def Obligations.LabelEventOpensAPass : Prop :=
  ∀ s : State, s.act = .fsuLabel → fits s.par.evCap (s.ev.length + 1) = true →
    exec .frLabel s = .next { s with act := .fsuInit, ev := s.ev ++ [{ kind := .label, line := s.cfg.chIndex }] }

/-- R204, R218: FR.SHIFT places the bit in RAW, the first in time highest, notes where a word and a frame begin, and
reports progress. -/
def Obligations.ShiftCollectsOneBit : Prop :=
  ∀ (s : State) (r r' : RsRec), InSyncAt s r r' → s.fsu.bitcnt.toNat < 11 →
    exec .frShift s = .next { s with
      fsu :=
        { raw := s.fsu.raw ||| (BitVec.ofNat 12 r.bit.toNat <<< (11 - s.fsu.bitcnt.toNat))
          bitcnt := s.fsu.bitcnt + 1
          bytecnt := s.fsu.bytecnt
          byteStart := if s.fsu.bitcnt = 0 then s.fsu.i else s.fsu.byteStart
          frameStart := if s.fsu.bitcnt = 0 ∧ s.fsu.bytecnt = 0 then s.fsu.i else s.fsu.frameStart
          i := s.fsu.i + 1 }
      progress := stepProgress s
      prog := s.prog ++ [stepProgress s] }

/-- R205, R206, R208, R211, R218: FR.WORD stores the data byte, emits the BYTE event and starts a new word. -/
def Obligations.WordStoresItsByte : Prop :=
  ∀ (s : State) (r r' r0 : RsRec), InSyncAt s r r' → s.fsu.bitcnt.toNat = 11 → s.fsu.bytecnt.toNat < 24 →
    s.rsAt s.fsu.byteStart.toNat = r0 → fits s.par.evCap (s.ev.length + 1) = true →
    let raw : W12 := s.fsu.raw ||| BitVec.ofNat 12 r.bit.toNat
    exec .frWord s = .next { s with
      fb := s.fb.setIfInBounds s.fsu.bytecnt.toNat (BitVec.ofNat 8 (raw.toNat / 8))
      ev := s.ev ++ [{
        kind := .byte, line := s.cfg.chIndex, startIdx := s.fsu.byteStart, endIdx := s.fsu.i + 1,
        startTime := r0.ts, endTime := r'.ts,
        value := if s.par.evBitOrder = .msbFirst then raw else raw.reverse }]
      fsu := { s.fsu with raw := 0, bitcnt := 0, bytecnt := s.fsu.bytecnt + 1, i := s.fsu.i + 1 }
      progress := stepProgress s
      prog := s.prog ++ [stepProgress s] }

/-- R213 to R216, R218: FR.FRAME completes the twenty-fifth word, counts the frame, decodes it, emits the frame event with
the tag of R215, remembers the percentage and clears the buffer. -/
def Obligations.FrameIsHandedOver : Prop :=
  ∀ (s : State) (r r' r0 rf : RsRec), InSyncAt s r r' → s.fsu.bitcnt.toNat = 11 → s.fsu.bytecnt.toNat = 24 →
    s.rsAt s.fsu.byteStart.toNat = r0 → s.rsAt s.fsu.frameStart.toNat = rf →
    fits s.par.evCap (s.ev.length + 2) = true → countsLeft s.frameCount 1 →
    let raw : W12 := s.fsu.raw ||| BitVec.ofNat 12 r.bit.toNat
    let fb := s.fb.setIfInBounds 24 (BitVec.ofNat 8 (raw.toNat / 8))
    (ValidFrame fb → countsLeft s.dec.good 1 ∧ ((fbAt fb 23).getLsbD 5 = true → countsLeft s.dec.lost 1)) →
    (¬ValidFrame fb → countsLeft s.dec.errors 1) →
    ∃ (d : Decoded) (lp : BitVec 7),
      (ValidFrame fb → DecodedBy fb s.dec d) ∧
      (¬ValidFrame fb → d = { s.dec with errors := s.dec.errors + 1 }) ∧
      lp.toNat = (d.lost.toNat + d.errors.toNat) * 100 / (d.good.toNat + d.lost.toNat + d.errors.toNat) ∧
      exec .frFrame s = .next { s with
        dec := d
        frameCount := s.frameCount + 1
        prevLoss := lp
        fb := Vector.replicate 25 0
        ev := s.ev ++ [
          { kind := .byte, line := s.cfg.chIndex, startIdx := s.fsu.byteStart, endIdx := s.fsu.i + 1,
            startTime := r0.ts, endTime := r'.ts,
            value := if s.par.evBitOrder = .msbFirst then raw else raw.reverse },
          { kind := if lp = s.prevLoss then .frameDecoded else .frameLost, line := s.cfg.chIndex,
            startIdx := s.fsu.frameStart, endIdx := s.fsu.i + 1, startTime := rf.ts, endTime := r'.ts,
            snapCh := d.ch, snapFs := d.failsafe, snapGood := d.good, snapLost := d.lost, snapErr := d.errors,
            snapLoss := lp }]
        fsu := { s.fsu with raw := 0, bitcnt := 0, bytecnt := 0, i := s.fsu.i + 1 }
        progress := stepProgress s
        prog := s.prog ++ [stepProgress s] }

/-- R217, R219, R218: FR.DESYNC abandons the word and the frame in progress without an event or a count; FR.TAIL only
advances and reports 100. -/
def Obligations.DesyncAndTailCollectNothing : Prop :=
  ∀ s : State, s.act = .fsuWalk →
    (∀ r r' : RsRec, s.fsu.i.toNat + 1 < s.rsLen.toNat →
      s.rsAt s.fsu.i.toNat = r → s.rsAt (s.fsu.i.toNat + 1) = r' →
      spb s < r'.ts.toNat - r.ts.toNat →
      exec .frDesync s = .next { s with
        fb := Vector.replicate 25 0
        fsu := { s.fsu with raw := 0, bitcnt := 0, bytecnt := 0, i := s.fsu.i + 1 }
        progress := stepProgress s
        prog := s.prog ++ [stepProgress s] }) ∧
    (s.fsu.i.toNat + 1 = s.rsLen.toNat →
      exec .frTail s = .next { s with
        fsu := { s.fsu with i := s.fsu.i + 1 }, progress := 100, prog := s.prog ++ [100] })

/-- R203: while the walk lasts, exactly one of the five step operations is selected, by the forward gap and the counts. -/
def Obligations.SynchronizerSelectsOneOperation : Prop :=
  ∀ s : State, s.act = .fsuWalk →
    (s.fsu.i.toNat + 1 = s.rsLen.toNat → selectOp s = some .frTail) ∧
    ∀ r r', s.fsu.i.toNat + 1 < s.rsLen.toNat → s.rsAt s.fsu.i.toNat = r →
      s.rsAt (s.fsu.i.toNat + 1) = r' → r.ts.toNat < r'.ts.toNat →
      (spb s < r'.ts.toNat - r.ts.toNat → selectOp s = some .frDesync) ∧
      (r'.ts.toNat - r.ts.toNat ≤ spb s →
        (s.fsu.bitcnt.toNat < 11 → selectOp s = some .frShift) ∧
        (s.fsu.bitcnt.toNat = 11 → s.fsu.bytecnt.toNat < 24 → selectOp s = some .frWord) ∧
        (s.fsu.bitcnt.toNat = 11 → s.fsu.bytecnt.toNat = 24 → selectOp s = some .frFrame))

/-- R138, R223, R339: FRAME completes on every well-formed RS for which EV has room for the events of R339 and the
counters for one frame per 300 records; FRAME_COUNT grows by the number of frame events, GOOD_FRAMES and
ERROR_FRAMES together by the same number, and each frame event has its 25 BYTE events. -/
def Obligations.FrameCompletesAndCounts : Prop :=
  ∀ s : State, 200000 ≤ s.cfg.sampleRate.toNat → ResampledReady s →
    fits s.par.evCap (s.ev.length + 1 + s.rsLen.toNat / 12 + s.rsLen.toNat / 300) = true →
    countsLeft s.frameCount (s.rsLen.toNat / 300) → countsLeft s.dec.good (s.rsLen.toNat / 300) →
    countsLeft s.dec.lost (s.rsLen.toNat / 300) → countsLeft s.dec.errors (s.rsLen.toNat / 300) →
    ∃ (t : State) (l : List EvRec) (n : Nat), exec .frame s = .next t ∧ OnlyFramed s.completed t ∧
      t.ev = s.ev ++ { kind := .label, line := s.cfg.chIndex } :: l ∧
      (l.filter fun e => e.kind == .frameDecoded || e.kind == .frameLost).length = n ∧
      25 * n ≤ (l.filter fun e => e.kind == .byte).length ∧
      t.frameCount.toNat = s.frameCount.toNat + n ∧
      t.dec.good.toNat + t.dec.errors.toNat = s.dec.good.toNat + s.dec.errors.toNat + n

/-- R218, R223, R42: a pass reports exactly one progress value per record, floor(100 i / RS_LEN) for i = 1 .. RS_LEN, in
order. -/
def Obligations.ProgressIsReportedOncePerRecord : Prop :=
  ∀ s t : State, exec .frame s = .next t → t.status.err = 0 →
    t.prog = s.prog ++ (List.range s.rsLen.toNat).map (fun m => BitVec.ofNat 7 (100 * (m + 1) / s.rsLen.toNat)) ∧
    t.progress = (if s.rsLen = 0 then 0 else 100)

-- ---------------------------------------------------------------- whole commands

/-- R143, R136: RUN completes on every capture that meets the host's obligations, and leaves the same RS, EV, FB, pass
registers and session state as RESAMPLE and then FRAME do; it additionally writes MODE_RESULT (through the MDU's
registers when it autodetects). The room asked of RS and EV is that of R339 for the frames detected. That IN_LEN = 1 with
record 0 never written is asked for nothing is the model's choice (log 8). -/
def Obligations.RunIsResampleThenFrame : Prop :=
  ∀ s : State, 200000 ≤ s.cfg.sampleRate.toNat → s.cfg.mode ≠ 3 → CaptureReady s →
    let n := 301 * framesDetected s
    fits s.par.rsCap n = true → fits s.par.evCap (s.ev.length + 1 + n / 12 + n / 300) = true →
    countsLeft s.frameCount (n / 300) → countsLeft s.dec.good (n / 300) →
    countsLeft s.dec.lost (n / 300) → countsLeft s.dec.errors (n / 300) →
    ∃ a b c, exec .resample s = .next a ∧ exec .frame a = .next b ∧ exec .run s = .next c ∧
      c = { b with modeEff := c.modeEff, modeFromGaps := c.modeFromGaps, mdu := c.mdu }

/-- R136, R36: RUN stores a forced mode as it is, with MODE_FROM_GAPS 0, and otherwise what MODEDET gives on the whole
capture. -/
def Obligations.RunStoresTheMode : Prop :=
  ∀ s t : State, exec .run s = .next t → t.status.err = 0 →
    (s.cfg.mode ≠ 0 → t.modeEff = s.cfg.mode ∧ t.modeFromGaps = false) ∧
    (s.cfg.mode = 0 → ∃ m, exec .modedet { s with cfg := { s.cfg with rangeStart := 0, rangeEnd := s.cfg.inLen } } =
      .next m ∧ t.modeEff = m.modeEff ∧ t.modeFromGaps = m.modeFromGaps)

/-- R186, R104: CONFIG.MODE has no effect on the RSU, the FSU or the FDU. RUN under another legal mode gives the same machine
but for MODE itself, MODE_RESULT and the MDU's registers; RESAMPLE, FRAME, DECODE and MODEDET under any other mode, the
reserved 3 among them, give the same machine but for MODE itself, and stop where they would stop. -/
def Obligations.ModeChangesNothingElse : Prop :=
  (∀ (s t : State) (m : BitVec 2), exec .run s = .next t → t.status.err = 0 → m ≠ 3 →
    ∃ t', exec .run { s with cfg := { s.cfg with mode := m } } = .next t' ∧
      t' = { t with
        cfg := { s.cfg with mode := m }
        modeEff := t'.modeEff
        modeFromGaps := t'.modeFromGaps
        mdu := t'.mdu }) ∧
  ∀ (s : State) (m : BitVec 2), ∀ i ∈ [Instr.resample, .frame, .decode, .modedet],
    (∀ t, exec i s = .next t →
      exec i { s with cfg := { s.cfg with mode := m } } = .next { t with cfg := { t.cfg with mode := m } }) ∧
    ∀ r, exec i s = .refused r → exec i { s with cfg := { s.cfg with mode := m } } = .refused r

/-- R131 with R8 (b): a command that completes in one step is what its micro-operations, one step each, make of the state
in which its first unit begins. That a command is one step is the model's form of R131 (log 2), and that the core can stand
between two micro-operations is the model's choice (log 14). -/
def Obligations.CommandsAreTheirMicroOperations : Prop :=
  ∀ s t : State, NoReset s → t.status.err = 0 →
    (exec .resample s = .next t → ∃ n, Host.Core.run Sys2Proof.core n (rsuBegin (started false s)) = .next t) ∧
    (exec .frame s = .next t → ∃ n, Host.Core.run Sys2Proof.core n (fsuBegin (started false s)) = .next t) ∧
    (exec .modedet s = .next t → ∃ n, Host.Core.run Sys2Proof.core n
      (mduBegin s.cfg.rangeStart.toNat s.cfg.rangeEnd.toNat (started false s)) = .next t) ∧
    (exec .run s = .next t → s.cfg.mode = 0 → ∃ n, Host.Core.run Sys2Proof.core n
      (mduBegin 0 s.cfg.inLen.toNat (started true s)) = .next t) ∧
    (exec .run s = .next t → s.cfg.mode ≠ 0 → ∃ n, Host.Core.run Sys2Proof.core n
      (rsuBegin { started true s with modeEff := s.cfg.mode, modeFromGaps := false }) = .next t)

-- ---------------------------------------------------------------- stops

/-- The model's choice (log 11), not a rule of the spec: a unit's micro-operation is refused by name in a state that does not select
it; the FDU's operations are refused on a frame of the other kind. -/
def Obligations.UnselectedOperationsAreRefused : Prop :=
  ∀ s : State,
    (∀ i ∈ [Instr.rsScan, .rsStart, .rsEdge, .rsFill, .rsClip, .rsTrail, .mdGap, .mdClassify, .frLabel, .frShift,
        .frWord, .frFrame, .frDesync, .frTail], selectOp s ≠ some i → ∃ m, exec i s = .refused (.notSelected m)) ∧
    (¬ValidFrame s.fb → ∀ i ∈ [Instr.decOk, .decGood, .decCh1, .decCh2, .decCh3, .decCh4, .decCh5, .decCh6, .decCh7,
        .decCh8, .decCh9, .decCh10, .decCh11, .decCh12, .decCh13, .decCh14, .decCh15, .decCh16, .decCh17, .decCh18,
        .decLost, .decFs], ∃ m, exec i s = .refused (.notSelected m)) ∧
    (ValidFrame s.fb → ∃ m, exec .decErr s = .refused (.notSelected m)) ∧
    ((fbAt s.fb 23).getLsbD 5 = false → ∃ m, exec .decLost s = .refused (.notSelected m))

/-- U1, U4, U7 of spec/93_implementation_defined.md: after its exceptions are ruled out, a command whose input is outside
the host's obligations is refused, and says which obligation is missing. The form of each stop is the model's (logs 8
and 9), and so is that a pair with an unwritten record is asked for nothing where the command does not read it (log 8). -/
def Obligations.CommandsStopOutsideTheirDomain : Prop :=
  ∀ s : State, 200000 ≤ s.cfg.sampleRate.toNat →
    (∀ i : Instr, (i = .run ∧ s.cfg.mode ≠ 3) ∨ i = .resample ∨
      (i = .modedet ∧ s.cfg.rangeStart.toNat ≤ s.cfg.rangeEnd.toNat ∧ s.cfg.rangeEnd.toNat ≤ s.cfg.inLen.toNat) →
      let a := if i = .modedet then s.cfg.rangeStart.toNat else 0
      let e := if i = .modedet then s.cfg.rangeEnd.toNat else s.cfg.inLen.toNat
      (fits s.par.inCap s.cfg.inLen.toNat = false → exec i s = .refused (.capacity .inp)) ∧
      (fits s.par.inCap s.cfg.inLen.toNat = true → ¬InputReady s a e → exec i s = .refused .inputNotIncreasing)) ∧
    (fits s.par.rsCap s.rsLen.toNat = false → exec .frame s = .refused (.capacity .rs)) ∧
    (fits s.par.rsCap s.rsLen.toNat = true → ¬ResampledReady s → exec .frame s = .refused .rsNotIncreasing)

/-- U6, U7 of spec/93_implementation_defined.md: DEC.GOOD, DEC.OK, DEC.LOST, DEC.ERR, DECODE and FR.FRAME where they would
take a counter to 2^32, FR.LABEL, FR.WORD and FR.FRAME where EV has no room for their events, and RS.TRAIL, RS.EDGE, RS.FILL and
RS.CLIP where RS has no room for their records, are refused; nothing wraps. The form of the stop is the model's (logs 9
and 10). -/
def Obligations.CountersAndMemoriesNeverWrap : Prop :=
  ∀ s : State,
    (ValidFrame s.fb → s.dec.good = 0xFFFFFFFF → exec .decGood s = .refused .counterOverflow) ∧
    (ValidFrame s.fb → s.dec.good = 0xFFFFFFFF → exec .decOk s = .refused .counterOverflow) ∧
    (ValidFrame s.fb → (fbAt s.fb 23).getLsbD 5 = true → s.dec.lost = 0xFFFFFFFF →
      exec .decLost s = .refused .counterOverflow ∧ exec .decOk s = .refused .counterOverflow) ∧
    (¬ValidFrame s.fb → s.dec.errors = 0xFFFFFFFF → exec .decErr s = .refused .counterOverflow) ∧
    (s.act = .fsuLabel → fits s.par.evCap (s.ev.length + 1) = false → exec .frLabel s = .refused (.capacity .ev)) ∧
    (selectOp s = some .frWord → fits s.par.evCap (s.ev.length + 1) = false →
      exec .frWord s = .refused (.capacity .ev)) ∧
    (s.cfg.fbLen = 25 → DecodeOverflows s.fb s.dec → exec .decode s = .refused .counterOverflow) ∧
    (∀ r : RsRec, selectOp s = some .frFrame → s.rsAt s.fsu.i.toNat = r →
      let raw : W12 := s.fsu.raw ||| BitVec.ofNat 12 r.bit.toNat
      let fb := s.fb.setIfInBounds 24 (BitVec.ofNat 8 (raw.toNat / 8))
      (fits s.par.evCap (s.ev.length + 1) = false → exec .frFrame s = .refused (.capacity .ev)) ∧
      (fits s.par.evCap (s.ev.length + 1) = true →
        (s.frameCount = 0xFFFFFFFF → exec .frFrame s = .refused .counterOverflow) ∧
        (DecodeOverflows fb s.dec → exec .frFrame s = .refused .counterOverflow) ∧
        (fits s.par.evCap (s.ev.length + 2) = false → countsLeft s.frameCount 1 → ¬DecodeOverflows fb s.dec →
          exec .frFrame s = .refused (.capacity .ev)))) ∧
    (s.act = .inFrame → s.rsu.count = 300 → fits s.par.rsCap (s.rsLen.toNat + 1) = false →
      exec .rsTrail s = .refused (.capacity .rs)) ∧
    (∀ (r r' : InRec), selectOp s = some .rsEdge →
      s.inAt s.rsu.k.toNat = r → s.inAt (s.rsu.k.toNat + 1) = r' →
      let n := min ((2 * (r'.ts.toNat - r.ts.toNat) + spb s) / (2 * spb s)) (300 - s.rsu.count)
      n ≠ 0 → fits s.par.rsCap (s.rsLen.toNat + n) = false → exec .rsEdge s = .refused (.capacity .rs)) ∧
    (∀ i ∈ [Instr.rsFill, .rsClip], selectOp s = some i →
      fits s.par.rsCap (s.rsLen.toNat + (300 - s.rsu.count)) = false → exec i s = .refused (.capacity .rs))

-- ---------------------------------------------------------------- every operation, every step

/-- R9, R38, R302: no operation writes the configuration, the IN records, the OPEN parameters or the host's pending
accesses. -/
def Obligations.TheCoreNeverWritesTheHostsState : Prop :=
  ∀ (i : Instr) (s t : State), exec i s = .next t →
    t.cfg = s.cfg ∧ t.inMem = s.inMem ∧ t.inEra = s.inEra ∧ t.par = s.par ∧ t.host = s.host

/-- R21, R24, R30, R216: other than SRESET, which clears them, only the FDU's operations and those that call the FDU write
the decoder state, and only FR.FRAME and the commands that run it write FRAME_COUNT and PREV_LOSS. -/
def Obligations.OnlyTheDecoderAndSresetWriteDecoderState : Prop :=
  ∀ (i : Instr) (s t : State), exec i s = .next t →
    (i ∈ [Instr.nop, .resample, .modedet, .rsScan, .rsStart, .rsEdge, .rsFill, .rsClip, .rsTrail, .mdGap, .mdClassify,
      .frLabel, .frShift, .frWord, .frDesync, .frTail, .losspct] ∨ (∃ w, i = .reservedCommand w) ∨ (∃ n, i = .norm n) →
      t.dec = s.dec) ∧
    (i ∉ [Instr.sreset, .run, .frame, .frFrame] → t.frameCount = s.frameCount ∧ t.prevLoss = s.prevLoss)

/-- R30: the frame counters never decrease, but by SRESET and hardware reset. -/
def Obligations.CountersNeverDecrease : Prop :=
  ∀ s t : State, step s = .next t → NoReset s → ¬(s.act = .idle ∧ s.host.head? = some (.writeCsr 0 1)) →
    s.dec.good.toNat ≤ t.dec.good.toNat ∧ s.dec.lost.toNat ≤ t.dec.lost.toNat ∧
    s.dec.errors.toNat ≤ t.dec.errors.toNat ∧ s.frameCount.toNat ≤ t.frameCount.toNat

/-- The invariant of Safety.lean holds after hardware reset, whatever the OPEN parameters. -/
def Obligations.InvariantHoldsAtReset : Prop :=
  StateInv State.reset ∧ ∀ p : Config.Params, StateInv (State.resetWith p)

/-- From every state with the invariant, reached or not, every step leads to a state with the invariant. -/
def Obligations.EveryStepKeepsTheInvariant : Prop :=
  ∀ s t : State, StateInv s → step s = .next t → StateInv t
end

