-- ==== Sys2Proof/Laws/Memory.lean ====
section
/-! SUPPORT. The laws of the record memories (20_memory.md R37, R14): read after write, and the canonical form. -/

namespace Sys2Proof

variable {α : Type}

/-- A read after a write gives the written record at its index and what it gave before elsewhere. -/
@[simp] theorem Memory.read_write (m : Memory α) (k a : Nat) (v : α) :
    (m.write k v).read a = if a = k then some v else m.read a := by
  induction m with
  | nil => by_cases h : k = a <;> simp_all [Memory.write, Memory.read, eq_comm]
  | cons e m ih =>
    obtain ⟨b, u⟩ := e
    simp only [Memory.write]
    split
    · by_cases h : k = a <;> simp_all [Memory.read, eq_comm]
    · split
      · by_cases h : k = a <;> simp_all [Memory.read, eq_comm]
      · simp only [Memory.read, ih]
        split <;> split <;> simp_all

/-- The canonical form, as rising indices. -/
theorem Memory.wf_iff (m : Memory α) : m.wf = true ↔ m.Pairwise fun a b => a.1 < b.1 := by
  induction m with
  | nil => simp [Memory.wf]
  | cons a m ih =>
    cases m with
    | nil => simp [Memory.wf]
    | cons b m =>
      simp only [Memory.wf, Bool.and_eq_true, decide_eq_true_eq, ih, List.pairwise_cons (a := a)]
      constructor
      · rintro ⟨h, p⟩
        refine ⟨fun c hc => ?_, p⟩
        rcases List.mem_cons.1 hc with rfl | hc
        · exact h
        · exact h.trans ((List.pairwise_cons.1 p).1 c hc)
      · rintro ⟨h, p⟩
        exact ⟨h b (by simp), p⟩

/-- Every index listed after a write was listed before, or is the written one. -/
theorem Memory.mem_write {m : Memory α} {k : Nat} {v : α} {e : Nat × α} (h : e ∈ m.write k v) :
    e = (k, v) ∨ e ∈ m := by
  induction m with
  | nil => simpa [Memory.write] using h
  | cons a m ih =>
    simp only [Memory.write] at h
    split at h
    · simpa using h
    · split at h
      · rcases List.mem_cons.1 h with h | h <;> simp [h]
      · rcases List.mem_cons.1 h with h | h
        · simp [h]
        · rcases ih h with h | h <;> simp [h]

/-- A write keeps the canonical form. -/
@[simp] theorem Memory.wf_write {m : Memory α} (h : m.wf = true) (k : Nat) (v : α) : (m.write k v).wf = true := by
  rw [Memory.wf_iff] at h ⊢
  induction m with
  | nil => simp [Memory.write]
  | cons a m ih =>
    obtain ⟨b, u⟩ := a
    obtain ⟨h1, h2⟩ := List.pairwise_cons.1 h
    simp only [Memory.write]
    split
    · rename_i hk
      refine List.pairwise_cons.2 ⟨fun c hc => ?_, h⟩
      rcases List.mem_cons.1 hc with rfl | hc
      · exact hk
      · exact hk.trans (h1 c hc)
    · split
      · rename_i _ hk
        subst hk
        exact List.pairwise_cons.2 ⟨h1, h2⟩
      · refine List.pairwise_cons.2 ⟨fun c hc => ?_, ih h2⟩
        rcases Memory.mem_write hc with rfl | hc
        · simp only; omega
        · exact h1 c hc

@[simp] theorem Memory.wf_nil : Memory.wf ([] : Memory α) = true := rfl

@[simp] theorem Memory.read_nil (k : Nat) : Memory.read ([] : Memory α) k = none := rfl

/-- A listed record is what its index reads as. -/
theorem Memory.read_of_mem {m : Memory α} (h : m.wf = true) {k : Nat} {v : α} (hm : (k, v) ∈ m) :
    m.read k = some v := by
  rw [Memory.wf_iff] at h
  induction m with
  | nil => simp at hm
  | cons a m ih =>
    obtain ⟨h1, h2⟩ := List.pairwise_cons.1 h
    rcases List.mem_cons.1 hm with rfl | hm
    · simp [Memory.read]
    · have := h1 _ hm
      simp only [Memory.read]
      rw [if_neg (by simp only at this; omega)]
      exact ih h2 hm

/-- What an index reads as is listed. -/
theorem Memory.mem_of_read {m : Memory α} {k : Nat} {v : α} (h : m.read k = some v) : (k, v) ∈ m := by
  induction m with
  | nil => simp at h
  | cons a m ih =>
    obtain ⟨b, u⟩ := a
    simp only [Memory.read] at h
    split at h
    · simp_all
    · exact List.mem_cons_of_mem _ (ih h)

/-- A memory is empty exactly when every index reads as no value. -/
theorem Memory.eq_nil_iff {m : Memory α} : m = [] ↔ ∀ k, m.read k = none := by
  cases m with
  | nil => simp
  | cons a m =>
    constructor
    · intro h; cases h
    · intro h; simpa [Memory.read] using h a.1

end Sys2Proof
end

