-- ==== Sys2Proof/Laws/State.lean ====
section
/-! SUPPORT. What each update of State leaves in each field, one lemma per field per update, so that no proof unfolds a
record update. -/

namespace Sys2Proof.Machine

variable (s : State)

-- State.setFb
@[simp] theorem State.setFb_par (k : Nat) (b : Byte) : (s.setFb k b).par = s.par := rfl
@[simp] theorem State.setFb_cfg (k : Nat) (b : Byte) : (s.setFb k b).cfg = s.cfg := rfl
@[simp] theorem State.setFb_status (k : Nat) (b : Byte) : (s.setFb k b).status = s.status := rfl
@[simp] theorem State.setFb_dec (k : Nat) (b : Byte) : (s.setFb k b).dec = s.dec := rfl
@[simp] theorem State.setFb_frameCount (k : Nat) (b : Byte) : (s.setFb k b).frameCount = s.frameCount := rfl
@[simp] theorem State.setFb_prevLoss (k : Nat) (b : Byte) : (s.setFb k b).prevLoss = s.prevLoss := rfl
@[simp] theorem State.setFb_progress (k : Nat) (b : Byte) : (s.setFb k b).progress = s.progress := rfl
@[simp] theorem State.setFb_modeEff (k : Nat) (b : Byte) : (s.setFb k b).modeEff = s.modeEff := rfl
@[simp] theorem State.setFb_modeFromGaps (k : Nat) (b : Byte) : (s.setFb k b).modeFromGaps = s.modeFromGaps := rfl
@[simp] theorem State.setFb_rsLen (k : Nat) (b : Byte) : (s.setFb k b).rsLen = s.rsLen := rfl
@[simp] theorem State.setFb_fb (k : Nat) (b : Byte) : (s.setFb k b).fb = s.fb.setIfInBounds k b := rfl
@[simp] theorem State.setFb_fsu (k : Nat) (b : Byte) : (s.setFb k b).fsu = s.fsu := rfl
@[simp] theorem State.setFb_rsu (k : Nat) (b : Byte) : (s.setFb k b).rsu = s.rsu := rfl
@[simp] theorem State.setFb_mdu (k : Nat) (b : Byte) : (s.setFb k b).mdu = s.mdu := rfl
@[simp] theorem State.setFb_inMem (k : Nat) (b : Byte) : (s.setFb k b).inMem = s.inMem := rfl
@[simp] theorem State.setFb_inEra (k : Nat) (b : Byte) : (s.setFb k b).inEra = s.inEra := rfl
@[simp] theorem State.setFb_rsMem (k : Nat) (b : Byte) : (s.setFb k b).rsMem = s.rsMem := rfl
@[simp] theorem State.setFb_rsEra (k : Nat) (b : Byte) : (s.setFb k b).rsEra = s.rsEra := rfl
@[simp] theorem State.setFb_ev (k : Nat) (b : Byte) : (s.setFb k b).ev = s.ev := rfl
@[simp] theorem State.setFb_prog (k : Nat) (b : Byte) : (s.setFb k b).prog = s.prog := rfl
@[simp] theorem State.setFb_act (k : Nat) (b : Byte) : (s.setFb k b).act = s.act := rfl
@[simp] theorem State.setFb_inRun (k : Nat) (b : Byte) : (s.setFb k b).inRun = s.inRun := rfl
@[simp] theorem State.setFb_host (k : Nat) (b : Byte) : (s.setFb k b).host = s.host := rfl
@[simp] theorem State.setFb_reply (k : Nat) (b : Byte) : (s.setFb k b).reply = s.reply := rfl
@[simp] theorem State.setFb_draws (k : Nat) (b : Byte) : (s.setFb k b).draws = s.draws := rfl

-- State.clearFb
@[simp] theorem State.clearFb_par : (s.clearFb).par = s.par := rfl
@[simp] theorem State.clearFb_cfg : (s.clearFb).cfg = s.cfg := rfl
@[simp] theorem State.clearFb_status : (s.clearFb).status = s.status := rfl
@[simp] theorem State.clearFb_dec : (s.clearFb).dec = s.dec := rfl
@[simp] theorem State.clearFb_frameCount : (s.clearFb).frameCount = s.frameCount := rfl
@[simp] theorem State.clearFb_prevLoss : (s.clearFb).prevLoss = s.prevLoss := rfl
@[simp] theorem State.clearFb_progress : (s.clearFb).progress = s.progress := rfl
@[simp] theorem State.clearFb_modeEff : (s.clearFb).modeEff = s.modeEff := rfl
@[simp] theorem State.clearFb_modeFromGaps : (s.clearFb).modeFromGaps = s.modeFromGaps := rfl
@[simp] theorem State.clearFb_rsLen : (s.clearFb).rsLen = s.rsLen := rfl
@[simp] theorem State.clearFb_fb : (s.clearFb).fb = Vector.replicate 25 0 := rfl
@[simp] theorem State.clearFb_fsu : (s.clearFb).fsu = s.fsu := rfl
@[simp] theorem State.clearFb_rsu : (s.clearFb).rsu = s.rsu := rfl
@[simp] theorem State.clearFb_mdu : (s.clearFb).mdu = s.mdu := rfl
@[simp] theorem State.clearFb_inMem : (s.clearFb).inMem = s.inMem := rfl
@[simp] theorem State.clearFb_inEra : (s.clearFb).inEra = s.inEra := rfl
@[simp] theorem State.clearFb_rsMem : (s.clearFb).rsMem = s.rsMem := rfl
@[simp] theorem State.clearFb_rsEra : (s.clearFb).rsEra = s.rsEra := rfl
@[simp] theorem State.clearFb_ev : (s.clearFb).ev = s.ev := rfl
@[simp] theorem State.clearFb_prog : (s.clearFb).prog = s.prog := rfl
@[simp] theorem State.clearFb_act : (s.clearFb).act = s.act := rfl
@[simp] theorem State.clearFb_inRun : (s.clearFb).inRun = s.inRun := rfl
@[simp] theorem State.clearFb_host : (s.clearFb).host = s.host := rfl
@[simp] theorem State.clearFb_reply : (s.clearFb).reply = s.reply := rfl
@[simp] theorem State.clearFb_draws : (s.clearFb).draws = s.draws := rfl

-- State.setCh
@[simp] theorem State.setCh_par (n : Nat) (v : Chan) : (s.setCh n v).par = s.par := rfl
@[simp] theorem State.setCh_cfg (n : Nat) (v : Chan) : (s.setCh n v).cfg = s.cfg := rfl
@[simp] theorem State.setCh_status (n : Nat) (v : Chan) : (s.setCh n v).status = s.status := rfl
@[simp] theorem State.setCh_dec (n : Nat) (v : Chan) :
    (s.setCh n v).dec = { s.dec with ch := s.dec.ch.setIfInBounds (n - 1) v } := rfl
@[simp] theorem State.setCh_frameCount (n : Nat) (v : Chan) : (s.setCh n v).frameCount = s.frameCount := rfl
@[simp] theorem State.setCh_prevLoss (n : Nat) (v : Chan) : (s.setCh n v).prevLoss = s.prevLoss := rfl
@[simp] theorem State.setCh_progress (n : Nat) (v : Chan) : (s.setCh n v).progress = s.progress := rfl
@[simp] theorem State.setCh_modeEff (n : Nat) (v : Chan) : (s.setCh n v).modeEff = s.modeEff := rfl
@[simp] theorem State.setCh_modeFromGaps (n : Nat) (v : Chan) : (s.setCh n v).modeFromGaps = s.modeFromGaps := rfl
@[simp] theorem State.setCh_rsLen (n : Nat) (v : Chan) : (s.setCh n v).rsLen = s.rsLen := rfl
@[simp] theorem State.setCh_fb (n : Nat) (v : Chan) : (s.setCh n v).fb = s.fb := rfl
@[simp] theorem State.setCh_fsu (n : Nat) (v : Chan) : (s.setCh n v).fsu = s.fsu := rfl
@[simp] theorem State.setCh_rsu (n : Nat) (v : Chan) : (s.setCh n v).rsu = s.rsu := rfl
@[simp] theorem State.setCh_mdu (n : Nat) (v : Chan) : (s.setCh n v).mdu = s.mdu := rfl
@[simp] theorem State.setCh_inMem (n : Nat) (v : Chan) : (s.setCh n v).inMem = s.inMem := rfl
@[simp] theorem State.setCh_inEra (n : Nat) (v : Chan) : (s.setCh n v).inEra = s.inEra := rfl
@[simp] theorem State.setCh_rsMem (n : Nat) (v : Chan) : (s.setCh n v).rsMem = s.rsMem := rfl
@[simp] theorem State.setCh_rsEra (n : Nat) (v : Chan) : (s.setCh n v).rsEra = s.rsEra := rfl
@[simp] theorem State.setCh_ev (n : Nat) (v : Chan) : (s.setCh n v).ev = s.ev := rfl
@[simp] theorem State.setCh_prog (n : Nat) (v : Chan) : (s.setCh n v).prog = s.prog := rfl
@[simp] theorem State.setCh_act (n : Nat) (v : Chan) : (s.setCh n v).act = s.act := rfl
@[simp] theorem State.setCh_inRun (n : Nat) (v : Chan) : (s.setCh n v).inRun = s.inRun := rfl
@[simp] theorem State.setCh_host (n : Nat) (v : Chan) : (s.setCh n v).host = s.host := rfl
@[simp] theorem State.setCh_reply (n : Nat) (v : Chan) : (s.setCh n v).reply = s.reply := rfl
@[simp] theorem State.setCh_draws (n : Nat) (v : Chan) : (s.setCh n v).draws = s.draws := rfl

-- State.prologue
@[simp] theorem State.prologue_par : (s.prologue).par = s.par := rfl
@[simp] theorem State.prologue_cfg : (s.prologue).cfg = s.cfg := rfl
@[simp] theorem State.prologue_status : (s.prologue).status = { s.status with done := false, err := 0 } := rfl
@[simp] theorem State.prologue_dec : (s.prologue).dec = s.dec := rfl
@[simp] theorem State.prologue_frameCount : (s.prologue).frameCount = s.frameCount := rfl
@[simp] theorem State.prologue_prevLoss : (s.prologue).prevLoss = s.prevLoss := rfl
@[simp] theorem State.prologue_progress : (s.prologue).progress = s.progress := rfl
@[simp] theorem State.prologue_modeEff : (s.prologue).modeEff = s.modeEff := rfl
@[simp] theorem State.prologue_modeFromGaps : (s.prologue).modeFromGaps = s.modeFromGaps := rfl
@[simp] theorem State.prologue_rsLen : (s.prologue).rsLen = s.rsLen := rfl
@[simp] theorem State.prologue_fb : (s.prologue).fb = s.fb := rfl
@[simp] theorem State.prologue_fsu : (s.prologue).fsu = s.fsu := rfl
@[simp] theorem State.prologue_rsu : (s.prologue).rsu = s.rsu := rfl
@[simp] theorem State.prologue_mdu : (s.prologue).mdu = s.mdu := rfl
@[simp] theorem State.prologue_inMem : (s.prologue).inMem = s.inMem := rfl
@[simp] theorem State.prologue_inEra : (s.prologue).inEra = s.inEra := rfl
@[simp] theorem State.prologue_rsMem : (s.prologue).rsMem = s.rsMem := rfl
@[simp] theorem State.prologue_rsEra : (s.prologue).rsEra = s.rsEra := rfl
@[simp] theorem State.prologue_ev : (s.prologue).ev = s.ev := rfl
@[simp] theorem State.prologue_prog : (s.prologue).prog = s.prog := rfl
@[simp] theorem State.prologue_act : (s.prologue).act = s.act := rfl
@[simp] theorem State.prologue_inRun : (s.prologue).inRun = s.inRun := rfl
@[simp] theorem State.prologue_host : (s.prologue).host = s.host := rfl
@[simp] theorem State.prologue_reply : (s.prologue).reply = s.reply := rfl
@[simp] theorem State.prologue_draws : (s.prologue).draws = s.draws := rfl

-- State.epilogue
@[simp] theorem State.epilogue_par : (s.epilogue).par = s.par := rfl
@[simp] theorem State.epilogue_cfg : (s.epilogue).cfg = s.cfg := rfl
@[simp] theorem State.epilogue_status : (s.epilogue).status = { s.status with done := true } := rfl
@[simp] theorem State.epilogue_dec : (s.epilogue).dec = s.dec := rfl
@[simp] theorem State.epilogue_frameCount : (s.epilogue).frameCount = s.frameCount := rfl
@[simp] theorem State.epilogue_prevLoss : (s.epilogue).prevLoss = s.prevLoss := rfl
@[simp] theorem State.epilogue_progress : (s.epilogue).progress = s.progress := rfl
@[simp] theorem State.epilogue_modeEff : (s.epilogue).modeEff = s.modeEff := rfl
@[simp] theorem State.epilogue_modeFromGaps : (s.epilogue).modeFromGaps = s.modeFromGaps := rfl
@[simp] theorem State.epilogue_rsLen : (s.epilogue).rsLen = s.rsLen := rfl
@[simp] theorem State.epilogue_fb : (s.epilogue).fb = s.fb := rfl
@[simp] theorem State.epilogue_fsu : (s.epilogue).fsu = s.fsu := rfl
@[simp] theorem State.epilogue_rsu : (s.epilogue).rsu = s.rsu := rfl
@[simp] theorem State.epilogue_mdu : (s.epilogue).mdu = s.mdu := rfl
@[simp] theorem State.epilogue_inMem : (s.epilogue).inMem = s.inMem := rfl
@[simp] theorem State.epilogue_inEra : (s.epilogue).inEra = s.inEra := rfl
@[simp] theorem State.epilogue_rsMem : (s.epilogue).rsMem = s.rsMem := rfl
@[simp] theorem State.epilogue_rsEra : (s.epilogue).rsEra = s.rsEra := rfl
@[simp] theorem State.epilogue_ev : (s.epilogue).ev = s.ev := rfl
@[simp] theorem State.epilogue_prog : (s.epilogue).prog = s.prog := rfl
@[simp] theorem State.epilogue_act : (s.epilogue).act = s.act := rfl
@[simp] theorem State.epilogue_inRun : (s.epilogue).inRun = s.inRun := rfl
@[simp] theorem State.epilogue_host : (s.epilogue).host = s.host := rfl
@[simp] theorem State.epilogue_reply : (s.epilogue).reply = s.reply := rfl
@[simp] theorem State.epilogue_draws : (s.epilogue).draws = s.draws := rfl

-- State.takeException
@[simp] theorem State.takeException_par (e : Exc) : (s.takeException e).par = s.par := rfl
@[simp] theorem State.takeException_cfg (e : Exc) : (s.takeException e).cfg = s.cfg := rfl
@[simp] theorem State.takeException_status (e : Exc) :
    (s.takeException e).status = { s.status with
      err := BitVec.ofNat 4 (excCode e)
      errlog := s.status.errlog ||| BitVec.twoPow 4 (excCode e - 1) } := rfl
@[simp] theorem State.takeException_dec (e : Exc) : (s.takeException e).dec = s.dec := rfl
@[simp] theorem State.takeException_frameCount (e : Exc) : (s.takeException e).frameCount = s.frameCount := rfl
@[simp] theorem State.takeException_prevLoss (e : Exc) : (s.takeException e).prevLoss = s.prevLoss := rfl
@[simp] theorem State.takeException_progress (e : Exc) : (s.takeException e).progress = s.progress := rfl
@[simp] theorem State.takeException_modeEff (e : Exc) : (s.takeException e).modeEff = s.modeEff := rfl
@[simp] theorem State.takeException_modeFromGaps (e : Exc) : (s.takeException e).modeFromGaps = s.modeFromGaps := rfl
@[simp] theorem State.takeException_rsLen (e : Exc) : (s.takeException e).rsLen = s.rsLen := rfl
@[simp] theorem State.takeException_fb (e : Exc) : (s.takeException e).fb = s.fb := rfl
@[simp] theorem State.takeException_fsu (e : Exc) : (s.takeException e).fsu = s.fsu := rfl
@[simp] theorem State.takeException_rsu (e : Exc) : (s.takeException e).rsu = s.rsu := rfl
@[simp] theorem State.takeException_mdu (e : Exc) : (s.takeException e).mdu = s.mdu := rfl
@[simp] theorem State.takeException_inMem (e : Exc) : (s.takeException e).inMem = s.inMem := rfl
@[simp] theorem State.takeException_inEra (e : Exc) : (s.takeException e).inEra = s.inEra := rfl
@[simp] theorem State.takeException_rsMem (e : Exc) : (s.takeException e).rsMem = s.rsMem := rfl
@[simp] theorem State.takeException_rsEra (e : Exc) : (s.takeException e).rsEra = s.rsEra := rfl
@[simp] theorem State.takeException_ev (e : Exc) : (s.takeException e).ev = s.ev := rfl
@[simp] theorem State.takeException_prog (e : Exc) : (s.takeException e).prog = s.prog := rfl
@[simp] theorem State.takeException_act (e : Exc) : (s.takeException e).act = s.act := rfl
@[simp] theorem State.takeException_inRun (e : Exc) : (s.takeException e).inRun = s.inRun := rfl
@[simp] theorem State.takeException_host (e : Exc) : (s.takeException e).host = s.host := rfl
@[simp] theorem State.takeException_reply (e : Exc) : (s.takeException e).reply = s.reply := rfl
@[simp] theorem State.takeException_draws (e : Exc) : (s.takeException e).draws = s.draws := rfl

-- State.goIdle
@[simp] theorem State.goIdle_par : (s.goIdle).par = s.par := rfl
@[simp] theorem State.goIdle_cfg : (s.goIdle).cfg = s.cfg := rfl
@[simp] theorem State.goIdle_status : (s.goIdle).status = s.status := rfl
@[simp] theorem State.goIdle_dec : (s.goIdle).dec = s.dec := rfl
@[simp] theorem State.goIdle_frameCount : (s.goIdle).frameCount = s.frameCount := rfl
@[simp] theorem State.goIdle_prevLoss : (s.goIdle).prevLoss = s.prevLoss := rfl
@[simp] theorem State.goIdle_progress : (s.goIdle).progress = s.progress := rfl
@[simp] theorem State.goIdle_modeEff : (s.goIdle).modeEff = s.modeEff := rfl
@[simp] theorem State.goIdle_modeFromGaps : (s.goIdle).modeFromGaps = s.modeFromGaps := rfl
@[simp] theorem State.goIdle_rsLen : (s.goIdle).rsLen = s.rsLen := rfl
@[simp] theorem State.goIdle_fb : (s.goIdle).fb = s.fb := rfl
@[simp] theorem State.goIdle_fsu : (s.goIdle).fsu = s.fsu := rfl
@[simp] theorem State.goIdle_rsu : (s.goIdle).rsu = s.rsu := rfl
@[simp] theorem State.goIdle_mdu : (s.goIdle).mdu = s.mdu := rfl
@[simp] theorem State.goIdle_inMem : (s.goIdle).inMem = s.inMem := rfl
@[simp] theorem State.goIdle_inEra : (s.goIdle).inEra = s.inEra := rfl
@[simp] theorem State.goIdle_rsMem : (s.goIdle).rsMem = s.rsMem := rfl
@[simp] theorem State.goIdle_rsEra : (s.goIdle).rsEra = s.rsEra := rfl
@[simp] theorem State.goIdle_ev : (s.goIdle).ev = s.ev := rfl
@[simp] theorem State.goIdle_prog : (s.goIdle).prog = s.prog := rfl
@[simp] theorem State.goIdle_act : (s.goIdle).act = .idle := rfl
@[simp] theorem State.goIdle_inRun : (s.goIdle).inRun = false := rfl
@[simp] theorem State.goIdle_host : (s.goIdle).host = s.host := rfl
@[simp] theorem State.goIdle_reply : (s.goIdle).reply = s.reply := rfl
@[simp] theorem State.goIdle_draws : (s.goIdle).draws = s.draws := rfl

-- State.clearSession
@[simp] theorem State.clearSession_par : (s.clearSession).par = s.par := rfl
@[simp] theorem State.clearSession_cfg : (s.clearSession).cfg = s.cfg := rfl
@[simp] theorem State.clearSession_status : (s.clearSession).status = { s.status with errlog := 0 } := rfl
@[simp] theorem State.clearSession_dec : (s.clearSession).dec = {} := rfl
@[simp] theorem State.clearSession_frameCount : (s.clearSession).frameCount = 0 := rfl
@[simp] theorem State.clearSession_prevLoss : (s.clearSession).prevLoss = 0 := rfl
@[simp] theorem State.clearSession_progress : (s.clearSession).progress = 0 := rfl
@[simp] theorem State.clearSession_modeEff : (s.clearSession).modeEff = 0 := rfl
@[simp] theorem State.clearSession_modeFromGaps : (s.clearSession).modeFromGaps = false := rfl
@[simp] theorem State.clearSession_rsLen : (s.clearSession).rsLen = 0 := rfl
@[simp] theorem State.clearSession_fb : (s.clearSession).fb = Vector.replicate 25 0 := rfl
@[simp] theorem State.clearSession_fsu : (s.clearSession).fsu = {} := rfl
@[simp] theorem State.clearSession_rsu : (s.clearSession).rsu = {} := rfl
@[simp] theorem State.clearSession_mdu : (s.clearSession).mdu = {} := rfl
@[simp] theorem State.clearSession_inMem : (s.clearSession).inMem = s.inMem := rfl
@[simp] theorem State.clearSession_inEra : (s.clearSession).inEra = s.inEra := rfl
@[simp] theorem State.clearSession_rsMem : (s.clearSession).rsMem = [] := rfl
@[simp] theorem State.clearSession_rsEra : (s.clearSession).rsEra = s.rsEra + 1 := rfl
@[simp] theorem State.clearSession_ev : (s.clearSession).ev = [] := rfl
@[simp] theorem State.clearSession_prog : (s.clearSession).prog = s.prog := rfl
@[simp] theorem State.clearSession_act : (s.clearSession).act = s.act := rfl
@[simp] theorem State.clearSession_inRun : (s.clearSession).inRun = s.inRun := rfl
@[simp] theorem State.clearSession_host : (s.clearSession).host = s.host := rfl
@[simp] theorem State.clearSession_reply : (s.clearSession).reply = s.reply := rfl
@[simp] theorem State.clearSession_draws : (s.clearSession).draws = s.draws := rfl

-- State.hardwareReset
@[simp] theorem State.hardwareReset_par : (s.hardwareReset).par = s.par := rfl
@[simp] theorem State.hardwareReset_cfg : (s.hardwareReset).cfg = {} := rfl
@[simp] theorem State.hardwareReset_status : (s.hardwareReset).status = {} := rfl
@[simp] theorem State.hardwareReset_dec : (s.hardwareReset).dec = {} := rfl
@[simp] theorem State.hardwareReset_frameCount : (s.hardwareReset).frameCount = 0 := rfl
@[simp] theorem State.hardwareReset_prevLoss : (s.hardwareReset).prevLoss = 0 := rfl
@[simp] theorem State.hardwareReset_progress : (s.hardwareReset).progress = 0 := rfl
@[simp] theorem State.hardwareReset_modeEff : (s.hardwareReset).modeEff = 0 := rfl
@[simp] theorem State.hardwareReset_modeFromGaps : (s.hardwareReset).modeFromGaps = false := rfl
@[simp] theorem State.hardwareReset_rsLen : (s.hardwareReset).rsLen = 0 := rfl
@[simp] theorem State.hardwareReset_fb : (s.hardwareReset).fb = Vector.replicate 25 0 := rfl
@[simp] theorem State.hardwareReset_fsu : (s.hardwareReset).fsu = {} := rfl
@[simp] theorem State.hardwareReset_rsu : (s.hardwareReset).rsu = {} := rfl
@[simp] theorem State.hardwareReset_mdu : (s.hardwareReset).mdu = {} := rfl
@[simp] theorem State.hardwareReset_inMem : (s.hardwareReset).inMem = [] := rfl
@[simp] theorem State.hardwareReset_inEra : (s.hardwareReset).inEra = s.inEra + 1 := rfl
@[simp] theorem State.hardwareReset_rsMem : (s.hardwareReset).rsMem = [] := rfl
@[simp] theorem State.hardwareReset_rsEra : (s.hardwareReset).rsEra = s.rsEra + 1 := rfl
@[simp] theorem State.hardwareReset_ev : (s.hardwareReset).ev = [] := rfl
@[simp] theorem State.hardwareReset_prog : (s.hardwareReset).prog = [] := rfl
@[simp] theorem State.hardwareReset_act : (s.hardwareReset).act = .idle := rfl
@[simp] theorem State.hardwareReset_inRun : (s.hardwareReset).inRun = false := rfl
@[simp] theorem State.hardwareReset_host : (s.hardwareReset).host = s.host := rfl
@[simp] theorem State.hardwareReset_reply : (s.hardwareReset).reply = none := rfl
@[simp] theorem State.hardwareReset_draws : (s.hardwareReset).draws = s.draws := rfl

-- emitProgress
@[simp] theorem emitProgress_par (p : BitVec 7) : (emitProgress p s).par = s.par := rfl
@[simp] theorem emitProgress_cfg (p : BitVec 7) : (emitProgress p s).cfg = s.cfg := rfl
@[simp] theorem emitProgress_status (p : BitVec 7) : (emitProgress p s).status = s.status := rfl
@[simp] theorem emitProgress_dec (p : BitVec 7) : (emitProgress p s).dec = s.dec := rfl
@[simp] theorem emitProgress_frameCount (p : BitVec 7) : (emitProgress p s).frameCount = s.frameCount := rfl
@[simp] theorem emitProgress_prevLoss (p : BitVec 7) : (emitProgress p s).prevLoss = s.prevLoss := rfl
@[simp] theorem emitProgress_progress (p : BitVec 7) : (emitProgress p s).progress = p := rfl
@[simp] theorem emitProgress_modeEff (p : BitVec 7) : (emitProgress p s).modeEff = s.modeEff := rfl
@[simp] theorem emitProgress_modeFromGaps (p : BitVec 7) : (emitProgress p s).modeFromGaps = s.modeFromGaps := rfl
@[simp] theorem emitProgress_rsLen (p : BitVec 7) : (emitProgress p s).rsLen = s.rsLen := rfl
@[simp] theorem emitProgress_fb (p : BitVec 7) : (emitProgress p s).fb = s.fb := rfl
@[simp] theorem emitProgress_fsu (p : BitVec 7) : (emitProgress p s).fsu = s.fsu := rfl
@[simp] theorem emitProgress_rsu (p : BitVec 7) : (emitProgress p s).rsu = s.rsu := rfl
@[simp] theorem emitProgress_mdu (p : BitVec 7) : (emitProgress p s).mdu = s.mdu := rfl
@[simp] theorem emitProgress_inMem (p : BitVec 7) : (emitProgress p s).inMem = s.inMem := rfl
@[simp] theorem emitProgress_inEra (p : BitVec 7) : (emitProgress p s).inEra = s.inEra := rfl
@[simp] theorem emitProgress_rsMem (p : BitVec 7) : (emitProgress p s).rsMem = s.rsMem := rfl
@[simp] theorem emitProgress_rsEra (p : BitVec 7) : (emitProgress p s).rsEra = s.rsEra := rfl
@[simp] theorem emitProgress_ev (p : BitVec 7) : (emitProgress p s).ev = s.ev := rfl
@[simp] theorem emitProgress_prog (p : BitVec 7) : (emitProgress p s).prog = s.prog ++ [p] := rfl
@[simp] theorem emitProgress_act (p : BitVec 7) : (emitProgress p s).act = s.act := rfl
@[simp] theorem emitProgress_inRun (p : BitVec 7) : (emitProgress p s).inRun = s.inRun := rfl
@[simp] theorem emitProgress_host (p : BitVec 7) : (emitProgress p s).host = s.host := rfl
@[simp] theorem emitProgress_reply (p : BitVec 7) : (emitProgress p s).reply = s.reply := rfl
@[simp] theorem emitProgress_draws (p : BitVec 7) : (emitProgress p s).draws = s.draws := rfl

-- stepEnd
@[simp] theorem stepEnd_par : (stepEnd s).par = s.par := rfl
@[simp] theorem stepEnd_cfg : (stepEnd s).cfg = s.cfg := rfl
@[simp] theorem stepEnd_status : (stepEnd s).status = s.status := rfl
@[simp] theorem stepEnd_dec : (stepEnd s).dec = s.dec := rfl
@[simp] theorem stepEnd_frameCount : (stepEnd s).frameCount = s.frameCount := rfl
@[simp] theorem stepEnd_prevLoss : (stepEnd s).prevLoss = s.prevLoss := rfl
@[simp] theorem stepEnd_progress : (stepEnd s).progress = progressPct (s.fsu.i.toNat + 1) s.rsLen.toNat := rfl
@[simp] theorem stepEnd_modeEff : (stepEnd s).modeEff = s.modeEff := rfl
@[simp] theorem stepEnd_modeFromGaps : (stepEnd s).modeFromGaps = s.modeFromGaps := rfl
@[simp] theorem stepEnd_rsLen : (stepEnd s).rsLen = s.rsLen := rfl
@[simp] theorem stepEnd_fb : (stepEnd s).fb = s.fb := rfl
@[simp] theorem stepEnd_fsu : (stepEnd s).fsu = { s.fsu with i := s.fsu.i + 1 } := rfl
@[simp] theorem stepEnd_rsu : (stepEnd s).rsu = s.rsu := rfl
@[simp] theorem stepEnd_mdu : (stepEnd s).mdu = s.mdu := rfl
@[simp] theorem stepEnd_inMem : (stepEnd s).inMem = s.inMem := rfl
@[simp] theorem stepEnd_inEra : (stepEnd s).inEra = s.inEra := rfl
@[simp] theorem stepEnd_rsMem : (stepEnd s).rsMem = s.rsMem := rfl
@[simp] theorem stepEnd_rsEra : (stepEnd s).rsEra = s.rsEra := rfl
@[simp] theorem stepEnd_ev : (stepEnd s).ev = s.ev := rfl
@[simp] theorem stepEnd_prog : (stepEnd s).prog = s.prog ++ [progressPct (s.fsu.i.toNat + 1) s.rsLen.toNat] := rfl
@[simp] theorem stepEnd_act : (stepEnd s).act = s.act := rfl
@[simp] theorem stepEnd_inRun : (stepEnd s).inRun = s.inRun := rfl
@[simp] theorem stepEnd_host : (stepEnd s).host = s.host := rfl
@[simp] theorem stepEnd_reply : (stepEnd s).reply = s.reply := rfl
@[simp] theorem stepEnd_draws : (stepEnd s).draws = s.draws := rfl

-- finish
@[simp] theorem finish_par : (finish s).par = s.par := rfl
@[simp] theorem finish_cfg : (finish s).cfg = s.cfg := rfl
@[simp] theorem finish_status : (finish s).status = { s.status with done := true } := rfl
@[simp] theorem finish_dec : (finish s).dec = s.dec := rfl
@[simp] theorem finish_frameCount : (finish s).frameCount = s.frameCount := rfl
@[simp] theorem finish_prevLoss : (finish s).prevLoss = s.prevLoss := rfl
@[simp] theorem finish_progress : (finish s).progress = s.progress := rfl
@[simp] theorem finish_modeEff : (finish s).modeEff = s.modeEff := rfl
@[simp] theorem finish_modeFromGaps : (finish s).modeFromGaps = s.modeFromGaps := rfl
@[simp] theorem finish_rsLen : (finish s).rsLen = s.rsLen := rfl
@[simp] theorem finish_fb : (finish s).fb = s.fb := rfl
@[simp] theorem finish_fsu : (finish s).fsu = s.fsu := rfl
@[simp] theorem finish_rsu : (finish s).rsu = s.rsu := rfl
@[simp] theorem finish_mdu : (finish s).mdu = s.mdu := rfl
@[simp] theorem finish_inMem : (finish s).inMem = s.inMem := rfl
@[simp] theorem finish_inEra : (finish s).inEra = s.inEra := rfl
@[simp] theorem finish_rsMem : (finish s).rsMem = s.rsMem := rfl
@[simp] theorem finish_rsEra : (finish s).rsEra = s.rsEra := rfl
@[simp] theorem finish_ev : (finish s).ev = s.ev := rfl
@[simp] theorem finish_prog : (finish s).prog = s.prog := rfl
@[simp] theorem finish_act : (finish s).act = .idle := rfl
@[simp] theorem finish_inRun : (finish s).inRun = false := rfl
@[simp] theorem finish_host : (finish s).host = s.host := rfl
@[simp] theorem finish_reply : (finish s).reply = s.reply := rfl
@[simp] theorem finish_draws : (finish s).draws = s.draws := rfl

-- rsuBegin
@[simp] theorem rsuBegin_par : (rsuBegin s).par = s.par := rfl
@[simp] theorem rsuBegin_cfg : (rsuBegin s).cfg = s.cfg := rfl
@[simp] theorem rsuBegin_status : (rsuBegin s).status = s.status := rfl
@[simp] theorem rsuBegin_dec : (rsuBegin s).dec = s.dec := rfl
@[simp] theorem rsuBegin_frameCount : (rsuBegin s).frameCount = s.frameCount := rfl
@[simp] theorem rsuBegin_prevLoss : (rsuBegin s).prevLoss = s.prevLoss := rfl
@[simp] theorem rsuBegin_progress : (rsuBegin s).progress = s.progress := rfl
@[simp] theorem rsuBegin_modeEff : (rsuBegin s).modeEff = s.modeEff := rfl
@[simp] theorem rsuBegin_modeFromGaps : (rsuBegin s).modeFromGaps = s.modeFromGaps := rfl
@[simp] theorem rsuBegin_rsLen : (rsuBegin s).rsLen = 0 := rfl
@[simp] theorem rsuBegin_fb : (rsuBegin s).fb = s.fb := rfl
@[simp] theorem rsuBegin_fsu : (rsuBegin s).fsu = s.fsu := rfl
@[simp] theorem rsuBegin_rsu : (rsuBegin s).rsu = { s.rsu with j := 1 } := rfl
@[simp] theorem rsuBegin_mdu : (rsuBegin s).mdu = s.mdu := rfl
@[simp] theorem rsuBegin_inMem : (rsuBegin s).inMem = s.inMem := rfl
@[simp] theorem rsuBegin_inEra : (rsuBegin s).inEra = s.inEra := rfl
@[simp] theorem rsuBegin_rsMem : (rsuBegin s).rsMem = [] := rfl
@[simp] theorem rsuBegin_rsEra : (rsuBegin s).rsEra = s.rsEra + 1 := rfl
@[simp] theorem rsuBegin_ev : (rsuBegin s).ev = s.ev := rfl
@[simp] theorem rsuBegin_prog : (rsuBegin s).prog = s.prog := rfl
@[simp] theorem rsuBegin_act : (rsuBegin s).act = .scan := rfl
@[simp] theorem rsuBegin_inRun : (rsuBegin s).inRun = s.inRun := rfl
@[simp] theorem rsuBegin_host : (rsuBegin s).host = s.host := rfl
@[simp] theorem rsuBegin_reply : (rsuBegin s).reply = s.reply := rfl
@[simp] theorem rsuBegin_draws : (rsuBegin s).draws = s.draws := rfl

-- mduBegin
@[simp] theorem mduBegin_par (a e : Nat) : (mduBegin a e s).par = s.par := rfl
@[simp] theorem mduBegin_cfg (a e : Nat) : (mduBegin a e s).cfg = s.cfg := rfl
@[simp] theorem mduBegin_status (a e : Nat) : (mduBegin a e s).status = s.status := rfl
@[simp] theorem mduBegin_dec (a e : Nat) : (mduBegin a e s).dec = s.dec := rfl
@[simp] theorem mduBegin_frameCount (a e : Nat) : (mduBegin a e s).frameCount = s.frameCount := rfl
@[simp] theorem mduBegin_prevLoss (a e : Nat) : (mduBegin a e s).prevLoss = s.prevLoss := rfl
@[simp] theorem mduBegin_progress (a e : Nat) : (mduBegin a e s).progress = s.progress := rfl
@[simp] theorem mduBegin_modeEff (a e : Nat) : (mduBegin a e s).modeEff = s.modeEff := rfl
@[simp] theorem mduBegin_modeFromGaps (a e : Nat) : (mduBegin a e s).modeFromGaps = s.modeFromGaps := rfl
@[simp] theorem mduBegin_rsLen (a e : Nat) : (mduBegin a e s).rsLen = s.rsLen := rfl
@[simp] theorem mduBegin_fb (a e : Nat) : (mduBegin a e s).fb = s.fb := rfl
@[simp] theorem mduBegin_fsu (a e : Nat) : (mduBegin a e s).fsu = s.fsu := rfl
@[simp] theorem mduBegin_rsu (a e : Nat) : (mduBegin a e s).rsu = s.rsu := rfl
@[simp] theorem mduBegin_mdu (a e : Nat) :
    (mduBegin a e s).mdu = { q := a + 1, stop := e, hist := [], m := 0, g := false } := rfl
@[simp] theorem mduBegin_inMem (a e : Nat) : (mduBegin a e s).inMem = s.inMem := rfl
@[simp] theorem mduBegin_inEra (a e : Nat) : (mduBegin a e s).inEra = s.inEra := rfl
@[simp] theorem mduBegin_rsMem (a e : Nat) : (mduBegin a e s).rsMem = s.rsMem := rfl
@[simp] theorem mduBegin_rsEra (a e : Nat) : (mduBegin a e s).rsEra = s.rsEra := rfl
@[simp] theorem mduBegin_ev (a e : Nat) : (mduBegin a e s).ev = s.ev := rfl
@[simp] theorem mduBegin_prog (a e : Nat) : (mduBegin a e s).prog = s.prog := rfl
@[simp] theorem mduBegin_act (a e : Nat) : (mduBegin a e s).act = .mdu := rfl
@[simp] theorem mduBegin_inRun (a e : Nat) : (mduBegin a e s).inRun = s.inRun := rfl
@[simp] theorem mduBegin_host (a e : Nat) : (mduBegin a e s).host = s.host := rfl
@[simp] theorem mduBegin_reply (a e : Nat) : (mduBegin a e s).reply = s.reply := rfl
@[simp] theorem mduBegin_draws (a e : Nat) : (mduBegin a e s).draws = s.draws := rfl

-- storeMode
@[simp] theorem storeMode_par : (storeMode s).par = s.par := rfl
@[simp] theorem storeMode_cfg : (storeMode s).cfg = s.cfg := rfl
@[simp] theorem storeMode_status : (storeMode s).status = s.status := rfl
@[simp] theorem storeMode_dec : (storeMode s).dec = s.dec := rfl
@[simp] theorem storeMode_frameCount : (storeMode s).frameCount = s.frameCount := rfl
@[simp] theorem storeMode_prevLoss : (storeMode s).prevLoss = s.prevLoss := rfl
@[simp] theorem storeMode_progress : (storeMode s).progress = s.progress := rfl
@[simp] theorem storeMode_modeEff : (storeMode s).modeEff = s.mdu.m := rfl
@[simp] theorem storeMode_modeFromGaps : (storeMode s).modeFromGaps = s.mdu.g := rfl
@[simp] theorem storeMode_rsLen : (storeMode s).rsLen = s.rsLen := rfl
@[simp] theorem storeMode_fb : (storeMode s).fb = s.fb := rfl
@[simp] theorem storeMode_fsu : (storeMode s).fsu = s.fsu := rfl
@[simp] theorem storeMode_rsu : (storeMode s).rsu = s.rsu := rfl
@[simp] theorem storeMode_mdu : (storeMode s).mdu = s.mdu := rfl
@[simp] theorem storeMode_inMem : (storeMode s).inMem = s.inMem := rfl
@[simp] theorem storeMode_inEra : (storeMode s).inEra = s.inEra := rfl
@[simp] theorem storeMode_rsMem : (storeMode s).rsMem = s.rsMem := rfl
@[simp] theorem storeMode_rsEra : (storeMode s).rsEra = s.rsEra := rfl
@[simp] theorem storeMode_ev : (storeMode s).ev = s.ev := rfl
@[simp] theorem storeMode_prog : (storeMode s).prog = s.prog := rfl
@[simp] theorem storeMode_act : (storeMode s).act = s.act := rfl
@[simp] theorem storeMode_inRun : (storeMode s).inRun = s.inRun := rfl
@[simp] theorem storeMode_host : (storeMode s).host = s.host := rfl
@[simp] theorem storeMode_reply : (storeMode s).reply = s.reply := rfl
@[simp] theorem storeMode_draws : (storeMode s).draws = s.draws := rfl

-- fsuBegin
@[simp] theorem fsuBegin_par : (fsuBegin s).par = s.par := rfl
@[simp] theorem fsuBegin_cfg : (fsuBegin s).cfg = s.cfg := rfl
@[simp] theorem fsuBegin_status : (fsuBegin s).status = s.status := rfl
@[simp] theorem fsuBegin_dec : (fsuBegin s).dec = s.dec := rfl
@[simp] theorem fsuBegin_frameCount : (fsuBegin s).frameCount = s.frameCount := rfl
@[simp] theorem fsuBegin_prevLoss : (fsuBegin s).prevLoss = s.prevLoss := rfl
@[simp] theorem fsuBegin_progress : (fsuBegin s).progress = s.progress := rfl
@[simp] theorem fsuBegin_modeEff : (fsuBegin s).modeEff = s.modeEff := rfl
@[simp] theorem fsuBegin_modeFromGaps : (fsuBegin s).modeFromGaps = s.modeFromGaps := rfl
@[simp] theorem fsuBegin_rsLen : (fsuBegin s).rsLen = s.rsLen := rfl
@[simp] theorem fsuBegin_fb : (fsuBegin s).fb = s.fb := rfl
@[simp] theorem fsuBegin_fsu : (fsuBegin s).fsu = s.fsu := rfl
@[simp] theorem fsuBegin_rsu : (fsuBegin s).rsu = s.rsu := rfl
@[simp] theorem fsuBegin_mdu : (fsuBegin s).mdu = s.mdu := rfl
@[simp] theorem fsuBegin_inMem : (fsuBegin s).inMem = s.inMem := rfl
@[simp] theorem fsuBegin_inEra : (fsuBegin s).inEra = s.inEra := rfl
@[simp] theorem fsuBegin_rsMem : (fsuBegin s).rsMem = s.rsMem := rfl
@[simp] theorem fsuBegin_rsEra : (fsuBegin s).rsEra = s.rsEra := rfl
@[simp] theorem fsuBegin_ev : (fsuBegin s).ev = s.ev := rfl
@[simp] theorem fsuBegin_prog : (fsuBegin s).prog = s.prog := rfl
@[simp] theorem fsuBegin_act : (fsuBegin s).act = .fsuLabel := rfl
@[simp] theorem fsuBegin_inRun : (fsuBegin s).inRun = s.inRun := rfl
@[simp] theorem fsuBegin_host : (fsuBegin s).host = s.host := rfl
@[simp] theorem fsuBegin_reply : (fsuBegin s).reply = s.reply := rfl
@[simp] theorem fsuBegin_draws : (fsuBegin s).draws = s.draws := rfl

-- fsuInit
@[simp] theorem fsuInit_par : (fsuInit s).par = s.par := rfl
@[simp] theorem fsuInit_cfg : (fsuInit s).cfg = s.cfg := rfl
@[simp] theorem fsuInit_status : (fsuInit s).status = s.status := rfl
@[simp] theorem fsuInit_dec : (fsuInit s).dec = s.dec := rfl
@[simp] theorem fsuInit_frameCount : (fsuInit s).frameCount = s.frameCount := rfl
@[simp] theorem fsuInit_prevLoss : (fsuInit s).prevLoss = s.prevLoss := rfl
@[simp] theorem fsuInit_progress : (fsuInit s).progress = 0 := rfl
@[simp] theorem fsuInit_modeEff : (fsuInit s).modeEff = s.modeEff := rfl
@[simp] theorem fsuInit_modeFromGaps : (fsuInit s).modeFromGaps = s.modeFromGaps := rfl
@[simp] theorem fsuInit_rsLen : (fsuInit s).rsLen = s.rsLen := rfl
@[simp] theorem fsuInit_fb : (fsuInit s).fb = Vector.replicate 25 0 := rfl
@[simp] theorem fsuInit_fsu : (fsuInit s).fsu = {} := rfl
@[simp] theorem fsuInit_rsu : (fsuInit s).rsu = s.rsu := rfl
@[simp] theorem fsuInit_mdu : (fsuInit s).mdu = s.mdu := rfl
@[simp] theorem fsuInit_inMem : (fsuInit s).inMem = s.inMem := rfl
@[simp] theorem fsuInit_inEra : (fsuInit s).inEra = s.inEra := rfl
@[simp] theorem fsuInit_rsMem : (fsuInit s).rsMem = s.rsMem := rfl
@[simp] theorem fsuInit_rsEra : (fsuInit s).rsEra = s.rsEra := rfl
@[simp] theorem fsuInit_ev : (fsuInit s).ev = s.ev := rfl
@[simp] theorem fsuInit_prog : (fsuInit s).prog = s.prog := rfl
@[simp] theorem fsuInit_act : (fsuInit s).act = .fsuWalk := rfl
@[simp] theorem fsuInit_inRun : (fsuInit s).inRun = s.inRun := rfl
@[simp] theorem fsuInit_host : (fsuInit s).host = s.host := rfl
@[simp] theorem fsuInit_reply : (fsuInit s).reply = s.reply := rfl
@[simp] theorem fsuInit_draws : (fsuInit s).draws = s.draws := rfl

-- State.answer
@[simp] theorem State.answer_par (r : Reply) : (s.answer r).par = s.par := rfl
@[simp] theorem State.answer_cfg (r : Reply) : (s.answer r).cfg = s.cfg := rfl
@[simp] theorem State.answer_status (r : Reply) : (s.answer r).status = s.status := rfl
@[simp] theorem State.answer_dec (r : Reply) : (s.answer r).dec = s.dec := rfl
@[simp] theorem State.answer_frameCount (r : Reply) : (s.answer r).frameCount = s.frameCount := rfl
@[simp] theorem State.answer_prevLoss (r : Reply) : (s.answer r).prevLoss = s.prevLoss := rfl
@[simp] theorem State.answer_progress (r : Reply) : (s.answer r).progress = s.progress := rfl
@[simp] theorem State.answer_modeEff (r : Reply) : (s.answer r).modeEff = s.modeEff := rfl
@[simp] theorem State.answer_modeFromGaps (r : Reply) : (s.answer r).modeFromGaps = s.modeFromGaps := rfl
@[simp] theorem State.answer_rsLen (r : Reply) : (s.answer r).rsLen = s.rsLen := rfl
@[simp] theorem State.answer_fb (r : Reply) : (s.answer r).fb = s.fb := rfl
@[simp] theorem State.answer_fsu (r : Reply) : (s.answer r).fsu = s.fsu := rfl
@[simp] theorem State.answer_rsu (r : Reply) : (s.answer r).rsu = s.rsu := rfl
@[simp] theorem State.answer_mdu (r : Reply) : (s.answer r).mdu = s.mdu := rfl
@[simp] theorem State.answer_inMem (r : Reply) : (s.answer r).inMem = s.inMem := rfl
@[simp] theorem State.answer_inEra (r : Reply) : (s.answer r).inEra = s.inEra := rfl
@[simp] theorem State.answer_rsMem (r : Reply) : (s.answer r).rsMem = s.rsMem := rfl
@[simp] theorem State.answer_rsEra (r : Reply) : (s.answer r).rsEra = s.rsEra := rfl
@[simp] theorem State.answer_ev (r : Reply) : (s.answer r).ev = s.ev := rfl
@[simp] theorem State.answer_prog (r : Reply) : (s.answer r).prog = s.prog := rfl
@[simp] theorem State.answer_act (r : Reply) : (s.answer r).act = s.act := rfl
@[simp] theorem State.answer_inRun (r : Reply) : (s.answer r).inRun = s.inRun := rfl
@[simp] theorem State.answer_host (r : Reply) : (s.answer r).host = s.host := rfl
@[simp] theorem State.answer_reply (r : Reply) : (s.answer r).reply = some r := rfl
@[simp] theorem State.answer_draws (r : Reply) : (s.answer r).draws = s.draws := rfl

-- State.answerFree
@[simp] theorem State.answerFree_par (f : Nat → Reply) : (s.answerFree f).par = s.par := rfl
@[simp] theorem State.answerFree_cfg (f : Nat → Reply) : (s.answerFree f).cfg = s.cfg := rfl
@[simp] theorem State.answerFree_status (f : Nat → Reply) : (s.answerFree f).status = s.status := rfl
@[simp] theorem State.answerFree_dec (f : Nat → Reply) : (s.answerFree f).dec = s.dec := rfl
@[simp] theorem State.answerFree_frameCount (f : Nat → Reply) : (s.answerFree f).frameCount = s.frameCount := rfl
@[simp] theorem State.answerFree_prevLoss (f : Nat → Reply) : (s.answerFree f).prevLoss = s.prevLoss := rfl
@[simp] theorem State.answerFree_progress (f : Nat → Reply) : (s.answerFree f).progress = s.progress := rfl
@[simp] theorem State.answerFree_modeEff (f : Nat → Reply) : (s.answerFree f).modeEff = s.modeEff := rfl
@[simp] theorem State.answerFree_modeFromGaps (f : Nat → Reply) :
    (s.answerFree f).modeFromGaps = s.modeFromGaps := rfl
@[simp] theorem State.answerFree_rsLen (f : Nat → Reply) : (s.answerFree f).rsLen = s.rsLen := rfl
@[simp] theorem State.answerFree_fb (f : Nat → Reply) : (s.answerFree f).fb = s.fb := rfl
@[simp] theorem State.answerFree_fsu (f : Nat → Reply) : (s.answerFree f).fsu = s.fsu := rfl
@[simp] theorem State.answerFree_rsu (f : Nat → Reply) : (s.answerFree f).rsu = s.rsu := rfl
@[simp] theorem State.answerFree_mdu (f : Nat → Reply) : (s.answerFree f).mdu = s.mdu := rfl
@[simp] theorem State.answerFree_inMem (f : Nat → Reply) : (s.answerFree f).inMem = s.inMem := rfl
@[simp] theorem State.answerFree_inEra (f : Nat → Reply) : (s.answerFree f).inEra = s.inEra := rfl
@[simp] theorem State.answerFree_rsMem (f : Nat → Reply) : (s.answerFree f).rsMem = s.rsMem := rfl
@[simp] theorem State.answerFree_rsEra (f : Nat → Reply) : (s.answerFree f).rsEra = s.rsEra := rfl
@[simp] theorem State.answerFree_ev (f : Nat → Reply) : (s.answerFree f).ev = s.ev := rfl
@[simp] theorem State.answerFree_prog (f : Nat → Reply) : (s.answerFree f).prog = s.prog := rfl
@[simp] theorem State.answerFree_act (f : Nat → Reply) : (s.answerFree f).act = s.act := rfl
@[simp] theorem State.answerFree_inRun (f : Nat → Reply) : (s.answerFree f).inRun = s.inRun := rfl
@[simp] theorem State.answerFree_host (f : Nat → Reply) : (s.answerFree f).host = s.host := rfl
@[simp] theorem State.answerFree_reply (f : Nat → Reply) : (s.answerFree f).reply = some (f s.draws) := rfl
@[simp] theorem State.answerFree_draws (f : Nat → Reply) : (s.answerFree f).draws = s.draws + 1 := rfl

end Sys2Proof.Machine
end

