-- ==== Sys2Proof/Laws/Ops.lean ====
section
/-! SUPPORT. What each shared operation can do, once: when it answers a next state, and which. -/

namespace Sys2Proof.Machine

@[simp] theorem andThen_next (s : State) (f : State → Out) : andThen (.next s) f = f s := rfl

@[simp] theorem andThen_fault (r : Fault) (f : State → Out) : andThen (.fault r) f = .fault r := rfl

@[simp] theorem andThen_refused (r : Refusal) (f : State → Out) : andThen (.refused r) f = .refused r := rfl

theorem andThen_of_eq {o : Out} {f : State → Out} {s : State} (h : o = .next s) : andThen o f = f s := by
  rw [h]; rfl

/-- A sequence answers a next state when its first part does and the second does from there. -/
theorem andThen_eq_next {o : Out} {f : State → Out} {t : State} :
    andThen o f = .next t ↔ ∃ s, o = .next s ∧ f s = .next t := by
  cases o <;> simp

@[simp] theorem andThen_next_right (o : Out) : andThen o (fun s => .next s) = o := by cases o <;> rfl

theorem andThen_assoc (o : Out) (f g : State → Out) :
    andThen (andThen o f) g = andThen o fun s => andThen (f s) g := by cases o <;> rfl

/-- A micro-operation answers a next state only where it is selected. -/
theorem whenSelected_eq_next {sel : Bool} {m : String} {o : Out} {t : State} :
    whenSelected sel m o = .next t ↔ sel = true ∧ o = .next t := by
  cases sel <;> simp [whenSelected]

@[simp] theorem whenSelected_true (m : String) (o : Out) : whenSelected true m o = o := rfl

@[simp] theorem whenSelected_false (m : String) (o : Out) : whenSelected false m o = .refused (.notSelected m) := rfl

/-- A written record is what is read at its index. -/
theorem inAt_of_read {s : State} {k : Nat} {r : InRec} (h : s.inMem.read k = some r) : s.inAt k = r := by
  simp [State.inAt, h]

theorem rsAt_of_read {s : State} {k : Nat} {r : RsRec} (h : s.rsMem.read k = some r) : s.rsAt k = r := by
  simp [State.rsAt, h]

/-- The IN records depend on the written ones and the era alone. -/
theorem inAt_congr {s t : State} (h : s.inMem = t.inMem) (he : s.inEra = t.inEra) (k : Nat) : s.inAt k = t.inAt k := by
  simp only [State.inAt, h, he]

theorem rsAt_congr {s t : State} (h : s.rsMem = t.rsMem) (he : s.rsEra = t.rsEra) (k : Nat) : s.rsAt k = t.rsAt k := by
  simp only [State.rsAt, h, he]

/-- A write of an IN record changes what is read at its index and nowhere else. -/
theorem inAt_write (s : State) (k a : Nat) (r : InRec) :
    ({ s with inMem := s.inMem.write k r } : State).inAt a = if a = k then r else s.inAt a := by
  by_cases h : a = k <;> simp [State.inAt, h]

theorem rsAt_write (s : State) (k a : Nat) (r : RsRec) :
    ({ s with rsMem := s.rsMem.write k r } : State).rsAt a = if a = k then r else s.rsAt a := by
  by_cases h : a = k <;> simp [State.rsAt, h]

/-- The ticks between two stamps, where the second is later. -/
theorem ticks_eq_some {a b : Stamp} {d : Nat} : ticks a b = some d ↔ a.toNat < b.toNat ∧ d = b.toNat - a.toNat := by
  simp [ticks, eq_comm]

theorem ticks_of_lt {a b : Stamp} (h : a.toNat < b.toNat) : ticks a b = some (b.toNat - a.toNat) := if_pos h

/-- A gap is never 0. -/
theorem ticks_pos {a b : Stamp} {d : Nat} (h : ticks a b = some d) : 0 < d := by
  obtain ⟨h, rfl⟩ := ticks_eq_some.1 h
  omega

/-- A shorter memory fits where a longer one does. -/
theorem fits_mono {cap : Option Nat} {m n : Nat} (h : fits cap n = true) (hmn : m ≤ n) : fits cap m = true := by
  cases cap <;> simp_all [fits] <;> omega

theorem lt_of_fits {cap : Option Nat} {n : Nat} (h : fits cap n = true) : n < 2 ^ 32 := by
  simp only [fits, Bool.and_eq_true, decide_eq_true_eq] at h
  exact h.1

/-- RS.append writes the record at RS_LEN and nothing else but RS_LEN. -/
theorem appendRs_eq_next {r : RsRec} {s t : State} :
    appendRs r s = .next t ↔ fits s.par.rsCap (s.rsLen.toNat + 1) = true ∧
      t = { s with rsMem := s.rsMem.write s.rsLen.toNat r, rsLen := s.rsLen + 1 } := by
  simp only [appendRs]
  split
  · rename_i h
    exact ⟨fun e => ⟨h, by cases e; rfl⟩, fun e => by rw [e.2]⟩
  · rename_i h
    exact ⟨fun e => (nomatch e), fun e => absurd e.1 h⟩

theorem appendEv_eq_next {e : EvRec} {s t : State} :
    appendEv e s = .next t ↔ fits s.par.evCap (s.ev.length + 1) = true ∧ t = { s with ev := s.ev ++ [e] } := by
  simp only [appendEv]
  split
  · rename_i h
    exact ⟨fun e => ⟨h, by cases e; rfl⟩, fun e => by rw [e.2]⟩
  · rename_i h
    exact ⟨fun e => (nomatch e), fun e => absurd e.1 h⟩

theorem counterUp_eq_next {c : Word} {f : Word → Out} {t : State} :
    counterUp c f = .next t ↔ c.toNat + 1 < 2 ^ 32 ∧ f (c + 1) = .next t := by
  simp only [counterUp]
  split
  · rename_i h
    exact ⟨fun e => ⟨h, e⟩, fun e => e.2⟩
  · rename_i h
    exact ⟨fun e => (nomatch e), fun e => absurd e.1 h⟩

theorem counterUp_of_lt {c : Word} (h : c.toNat + 1 < 2 ^ 32) (f : Word → Out) : counterUp c f = f (c + 1) :=
  if_pos h

theorem counterUp_of_not_lt {c : Word} (h : ¬c.toNat + 1 < 2 ^ 32) (f : Word → Out) :
    counterUp c f = .refused .counterOverflow :=
  if_neg h

/-- A counter that does not reach 2^32 counts by exactly one. -/
theorem toNat_add_one {c : Word} (h : c.toNat + 1 < 2 ^ 32) : (c + 1).toNat = c.toNat + 1 := by
  rw [BitVec.toNat_add]
  exact Nat.mod_eq_of_lt h

@[simp] theorem raise_eq_next {e : Exc} {s t : State} : raise e s = .next t ↔ t = s.takeException e := by
  simp [raise, eq_comm]

/-- PRECHECK raises and changes nothing but STATUS, or runs the body. -/
theorem precheck_eq_next {s t : State} {body : Out} :
    precheck s body = .next t ↔
      (200000 ≤ s.cfg.sampleRate.toNat ∧ body = .next t) ∨
      (s.cfg.sampleRate.toNat < 200000 ∧ t = s.takeException .preconditionFailure) := by
  by_cases h : 200000 ≤ s.cfg.sampleRate.toNat
  · simp [precheck, rateOk, Config.minSampleRate, h, Nat.not_lt.2 h]
  · simp [precheck, rateOk, Config.minSampleRate, h, Nat.not_le.1 h]

theorem precheck_of_rate {s : State} (h : 200000 ≤ s.cfg.sampleRate.toNat) (body : Out) : precheck s body = body := by
  simp [precheck, rateOk, Config.minSampleRate, h]

/-- FB[k] after FB[k'] <- b. -/
theorem fbAt_set (fb : Vector Byte 25) (k k' : Nat) (b : Byte) :
    fbAt (fb.setIfInBounds k' b) k = if k = k' ∧ k < 25 then b else fbAt fb k := by
  simp only [fbAt, Vector.getElem?_setIfInBounds]
  by_cases h : k' = k
  · subst h
    by_cases hk : k' < 25 <;> simp [hk]
  · simp [h, Ne.symm h]

/-- CH[n] after CH[n'] <- v. -/
theorem chAt_set (ch : Vector Chan 18) (n k : Nat) (v : Chan) :
    chAt (ch.setIfInBounds k v) n = if n - 1 = k ∧ k < 18 then v else chAt ch n := by
  simp only [chAt, Vector.getElem?_setIfInBounds]
  by_cases h : k = n - 1
  · subst h
    by_cases hk : n - 1 < 18 <;> simp [hk]
  · simp [h, Ne.symm h]

/-- Two frame buffers with the same 25 bytes are the same. -/
theorem fb_ext {a b : Vector Byte 25} (h : ∀ k, k < 25 → fbAt a k = fbAt b k) : a = b := by
  ext k hk
  have := h k hk
  simp only [fbAt, Vector.getElem?_eq_getElem hk, Option.getD_some] at this
  rw [this]

end Sys2Proof.Machine
end

