-- ==== Sys2Proof/Laws/Detector.lean ====
section
/-! SUPPORT. What the Mode Detector's operations can do (42_mode_detector.md R181 to R187), once each. -/

namespace Sys2Proof.Machine

theorem pairGap_of_lt {s : State} (h1 : 1 ≤ s.mdu.q) (h2 : s.mdu.q < s.mdu.stop)
    (h : (s.inAt (s.mdu.q - 1)).ts.toNat < (s.inAt s.mdu.q).ts.toNat) :
    pairGap s = some ((s.inAt s.mdu.q).ts.toNat - (s.inAt (s.mdu.q - 1)).ts.toNat) := by
  simp only [pairGap, if_pos (And.intro h1 h2), inGap, ticks_of_lt h]

/-- Tallying a gap changes at most that gap's count. -/
theorem tally_read (rate dt x : Nat) (h : Memory Nat) :
    (tally rate dt h).read x =
      if 3 * rate < 1000 * dt ∧ x = dt then some ((h.read dt).getD 0 + 1) else h.read x := by
  simp only [tally]
  by_cases g : 3 * rate < 1000 * dt <;> simp [g]

theorem tally_wf {h : Memory Nat} (w : h.wf = true) (rate dt : Nat) : (tally rate dt h).wf = true := by
  simp only [tally]
  split
  · exact Memory.wf_write w _ _
  · exact w

/-- Every count is at most the largest. -/
theorem le_maxCount {h : Memory Nat} {e : Nat × Nat} (he : e ∈ h) : e.2 ≤ maxCount h := by
  have key : ∀ (l : List (Nat × Nat)) (c : Nat), c ≤ l.foldl (fun c e => max c e.2) c ∧
      ∀ x ∈ l, x.2 ≤ l.foldl (fun c e => max c e.2) c := by
    intro l
    induction l with
    | nil => intro c; simp
    | cons a l ih =>
      intro c
      obtain ⟨h1, h2⟩ := ih (max c a.2)
      refine ⟨(le_max_left _ _).trans h1, fun x hx => ?_⟩
      rcases List.mem_cons.1 hx with rfl | hx
      · exact (le_max_right _ _).trans h1
      · exact h2 x hx
  exact (key h 0).2 e he

/-- The largest count is some gap's. -/
theorem exists_maxCount {h : Memory Nat} (hne : h ≠ []) : ∃ e ∈ h, e.2 = maxCount h := by
  have key : ∀ (l : List (Nat × Nat)) (c : Nat), l.foldl (fun c e => max c e.2) c = c ∨
      ∃ x ∈ l, x.2 = l.foldl (fun c e => max c e.2) c := by
    intro l
    induction l with
    | nil => intro c; simp
    | cons a l ih =>
      intro c
      rcases ih (max c a.2) with h1 | ⟨x, hx, h1⟩
      · rcases le_total a.2 c with h2 | h2
        · left; simpa [h2] using h1
        · right; exact ⟨a, by simp, by simp only [List.foldl_cons]; rw [h1, max_eq_right h2]⟩
      · exact .inr ⟨x, by simp [hx], h1⟩
  rcases key h 0 with h1 | h1
  · cases h with
    | nil => exact absurd rfl hne
    | cons a l =>
      refine ⟨a, by simp, ?_⟩
      have := le_maxCount (h := a :: l) (e := a) (by simp)
      have h2 : maxCount (a :: l) = 0 := h1
      omega
  · exact h1

/-- R185: LOW_SPEED exactly when the gap is longer than 10.5 ms. -/
theorem classify_eq {rate : Nat} (hr : 0 < rate) (g : Nat) :
    classify rate g = if 2000 * g > 21 * rate then 1 else 2 := by
  simp only [classify]
  by_cases h : 2000 * g > 21 * rate
  · rw [if_pos h, if_pos (by omega)]
  · rw [if_neg h, if_neg (by omega)]

theorem execMdGap_eq_next {s t : State} :
    execMdGap s = .next t ↔ selMdGap s = true ∧ t = { s with mdu := { s.mdu with
      hist := tally s.cfg.sampleRate.toNat ((pairGap s).getD 0) s.mdu.hist
      q := s.mdu.q + 1 } } := by
  simp only [execMdGap, whenSelected_eq_next]
  exact and_congr_right fun _ => ⟨fun e => by cases e; rfl, fun e => by rw [e]⟩

theorem execMdClassify_eq_next {s t : State} :
    execMdClassify s = .next t ↔ selMdClassify s = true ∧ t = { s with
      act := .mduDone
      mdu := { s.mdu with
        m := classify s.cfg.sampleRate.toNat (chosenGap s.par.modeTie s.mdu.hist)
        g := !s.mdu.hist.isEmpty } } := by
  simp only [execMdClassify, whenSelected_eq_next]
  exact and_congr_right fun _ => ⟨fun e => by cases e; rfl, fun e => by rw [e]⟩

/-- What every MD.GAP keeps holds after the walk. -/
theorem mduLoop_keeps (P : State → Prop) (hstep : ∀ s t, P s → execMdGap s = .next t → P t) {n : Nat} {s t : State}
    (h : mduLoop n s = .next t) (hs : P s) : P t := by
  induction n generalizing s with
  | zero => cases h; exact hs
  | succ n ih =>
    obtain ⟨u, h1, h2⟩ := andThen_eq_next.1 h
    exact ih h2 (hstep s u hs h1)

/-- The MDU writes its own registers and its place in the walk, and nothing else. -/
theorem mduBody_only {a e : Nat} {s t : State} (h : mduBody a e s = .next t) :
    t = { s with act := t.act, mdu := t.mdu } := by
  obtain ⟨u, h1, h2⟩ := andThen_eq_next.1 h
  obtain ⟨-, rfl⟩ := execMdClassify_eq_next.1 h2
  have := mduLoop_keeps (fun x => x = { s with act := x.act, mdu := x.mdu })
    (fun x y hx hy => by
      obtain ⟨-, rfl⟩ := execMdGap_eq_next.1 hy
      rw [hx])
    h1 rfl
  rw [this]

end Sys2Proof.Machine
end

