-- ==== Sys2Proof/Laws/Decoder.lean ====
section
/-! SUPPORT. What the Frame Decoder's operations can do (44_decoder.md R243 to R271), once each. -/

namespace Sys2Proof.Machine

/-- The eighteen channels of a frame, channel 1 first. -/
def channelsOf (fb : Vector Byte 25) : Vector Chan 18 :=
  #v[rev (ext1 fb), rev (ext2 fb), rev (ext3 fb), rev (ext4 fb), rev (ext5 fb), rev (ext6 fb), rev (ext7 fb),
    rev (ext8 fb), rev (ext9 fb), rev (ext10 fb), rev (ext11 fb), rev (ext12 fb), rev (ext13 fb), rev (ext14 fb),
    rev (ext15 fb), rev (ext16 fb), digital (flagBit fb 7), digital (flagBit fb 6)]

/-- The decoder state after a DEC.OK on `fb` (R271). -/
def decodedOf (fb : Vector Byte 25) (d : Decoded) : Decoded :=
  { ch := channelsOf fb, failsafe := flagBit fb 4, good := d.good + 1,
    lost := if flagBit fb 5 then d.lost + 1 else d.lost, errors := d.errors }

theorem frameValid_iff {fb : Vector Byte 25} : frameValid fb = true ↔ fbAt fb 0 = 0xF0 ∧ fbAt fb 24 = 0x00 := by
  simp [frameValid, Config.startByte, Config.endByte]

theorem writeChannel_eq_next {m : String} {n : Nat} {v : Vector Byte 25 → Chan} {s t : State} :
    writeChannel m n v s = .next t ↔ frameValid s.fb = true ∧ t = s.setCh n (v s.fb) := by
  simp only [writeChannel, whenSelected_eq_next]
  exact and_congr_right fun _ => ⟨fun h => by cases h; rfl, fun h => by rw [h]⟩

theorem writeChannel_of_valid {s : State} (h : frameValid s.fb = true) (m : String) (n : Nat)
    (v : Vector Byte 25 → Chan) : writeChannel m n v s = .next (s.setCh n (v s.fb)) :=
  writeChannel_eq_next.2 ⟨h, rfl⟩

/-- Writing the eighteen entries one after another is writing the vector of them. -/
theorem set_all (ch : Vector Chan 18) (a b c d e f g h i j k l m n o p q r : Chan) :
    ((((((((((((((((((ch.setIfInBounds 0 a).setIfInBounds 1 b).setIfInBounds 2 c).setIfInBounds 3 d).setIfInBounds 4
      e).setIfInBounds 5 f).setIfInBounds 6 g).setIfInBounds 7 h).setIfInBounds 8 i).setIfInBounds 9 j).setIfInBounds 10
      k).setIfInBounds 11 l).setIfInBounds 12 m).setIfInBounds 13 n).setIfInBounds 14 o).setIfInBounds 15
      p).setIfInBounds 16 q).setIfInBounds 17 r) = #v[a, b, c, d, e, f, g, h, i, j, k, l, m, n, o, p, q, r] := by
  ext x hx
  interval_cases x <;> simp

/-- The state with all eighteen channels replaced. -/
def withChannels (s : State) (v : Vector Chan 18) : State := { s with dec := { s.dec with ch := v } }

theorem setCh_eq_withChannels (s : State) (n : Nat) (x : Chan) :
    s.setCh n x = withChannels s (s.dec.ch.setIfInBounds (n - 1) x) := rfl

theorem withChannels_setCh (s : State) (v : Vector Chan 18) (n : Nat) (x : Chan) :
    (withChannels s v).setCh n x = withChannels s (v.setIfInBounds (n - 1) x) := rfl

theorem withChannels_fb (s : State) (v : Vector Chan 18) : (withChannels s v).fb = s.fb := rfl

/-- The eighteen channel operations together: the channels become those of the frame, and nothing else changes. -/
theorem decChannels_of_valid {s : State} (h : frameValid s.fb = true) :
    decChannels s = .next (withChannels s (channelsOf s.fb)) := by
  have first : ∀ (m : String) (n : Nat) (v : Vector Byte 25 → Chan), writeChannel m n v s =
      .next (withChannels s (s.dec.ch.setIfInBounds (n - 1) (v s.fb))) :=
    fun m n v => writeChannel_of_valid h m n v
  have next : ∀ (w : Vector Chan 18) (m : String) (n : Nat) (v : Vector Byte 25 → Chan),
      writeChannel m n v (withChannels s w) = .next (withChannels s (w.setIfInBounds (n - 1) (v s.fb))) :=
    fun w m n v => writeChannel_of_valid (s := withChannels s w) h m n v
  rw [channelsOf, ← set_all s.dec.ch]
  refine (andThen_of_eq (first "DEC.CH1" 1 (fun fb => rev (ext1 fb)))).trans ?_
  refine (andThen_of_eq (next _ "DEC.CH2" 2 (fun fb => rev (ext2 fb)))).trans ?_
  refine (andThen_of_eq (next _ "DEC.CH3" 3 (fun fb => rev (ext3 fb)))).trans ?_
  refine (andThen_of_eq (next _ "DEC.CH4" 4 (fun fb => rev (ext4 fb)))).trans ?_
  refine (andThen_of_eq (next _ "DEC.CH5" 5 (fun fb => rev (ext5 fb)))).trans ?_
  refine (andThen_of_eq (next _ "DEC.CH6" 6 (fun fb => rev (ext6 fb)))).trans ?_
  refine (andThen_of_eq (next _ "DEC.CH7" 7 (fun fb => rev (ext7 fb)))).trans ?_
  refine (andThen_of_eq (next _ "DEC.CH8" 8 (fun fb => rev (ext8 fb)))).trans ?_
  refine (andThen_of_eq (next _ "DEC.CH9" 9 (fun fb => rev (ext9 fb)))).trans ?_
  refine (andThen_of_eq (next _ "DEC.CH10" 10 (fun fb => rev (ext10 fb)))).trans ?_
  refine (andThen_of_eq (next _ "DEC.CH11" 11 (fun fb => rev (ext11 fb)))).trans ?_
  refine (andThen_of_eq (next _ "DEC.CH12" 12 (fun fb => rev (ext12 fb)))).trans ?_
  refine (andThen_of_eq (next _ "DEC.CH13" 13 (fun fb => rev (ext13 fb)))).trans ?_
  refine (andThen_of_eq (next _ "DEC.CH14" 14 (fun fb => rev (ext14 fb)))).trans ?_
  refine (andThen_of_eq (next _ "DEC.CH15" 15 (fun fb => rev (ext15 fb)))).trans ?_
  refine (andThen_of_eq (next _ "DEC.CH16" 16 (fun fb => rev (ext16 fb)))).trans ?_
  refine (andThen_of_eq (next _ "DEC.CH17" 17 (fun fb => digital (flagBit fb 7)))).trans ?_
  exact next _ "DEC.CH18" 18 (fun fb => digital (flagBit fb 6))

/-- DEC.OK on a valid frame whose counters do not overflow: R271 and nothing else. -/
theorem execDecOk_eq_next {s t : State} :
    execDecOk s = .next t ↔ frameValid s.fb = true ∧ s.dec.good.toNat + 1 < 2 ^ 32 ∧
      (flagBit s.fb 5 = true → s.dec.lost.toNat + 1 < 2 ^ 32) ∧ t = { s with dec := decodedOf s.fb s.dec } := by
  by_cases h : frameValid s.fb = true
  · by_cases hg : s.dec.good.toNat + 1 < 2 ^ 32
    · by_cases hf : flagBit s.fb 5 = true
      · by_cases hl : s.dec.lost.toNat + 1 < 2 ^ 32
        · have : execDecOk s = .next { s with dec := decodedOf s.fb s.dec } := by
            simp [execDecOk, h, execDecGood, counterUp_of_lt hg, decChannels_of_valid, hf, execDecLost,
              counterUp_of_lt hl, execDecFs, decodedOf, withChannels]
          rw [this]
          exact ⟨fun e => ⟨h, hg, fun _ => hl, by cases e; rfl⟩, fun e => by rw [e.2.2.2]⟩
        · have : execDecOk s = .refused .counterOverflow := by
            simp [execDecOk, h, execDecGood, counterUp_of_lt hg, decChannels_of_valid, hf, execDecLost,
              counterUp_of_not_lt hl, withChannels]
          rw [this]
          exact ⟨fun e => (nomatch e), fun e => absurd (e.2.2.1 hf) hl⟩
      · have : execDecOk s = .next { s with dec := decodedOf s.fb s.dec } := by
          simp [execDecOk, h, execDecGood, counterUp_of_lt hg, decChannels_of_valid, hf, execDecFs, decodedOf, withChannels]
        rw [this]
        exact ⟨fun e => ⟨h, hg, fun e' => absurd e' hf, by cases e; rfl⟩, fun e => by rw [e.2.2.2]⟩
    · have : execDecOk s = .refused .counterOverflow := by
        simp [execDecOk, h, execDecGood, counterUp_of_not_lt hg]
      rw [this]
      exact ⟨fun e => (nomatch e), fun e => absurd e.2.1 hg⟩
  · have : execDecOk s = .refused (.notSelected "DEC.OK") := by
      simp [execDecOk, h]
    rw [this]
    exact ⟨fun e => (nomatch e), fun e => absurd e.1 h⟩

/-- DEC.ERR: ERROR_FRAMES + 1 and nothing else. -/
theorem execDecErr_eq_next {s t : State} :
    execDecErr s = .next t ↔ frameValid s.fb = false ∧ s.dec.errors.toNat + 1 < 2 ^ 32 ∧
      t = { s with dec := { s.dec with errors := s.dec.errors + 1 } } := by
  simp only [execDecErr, whenSelected_eq_next, counterUp_eq_next, Bool.not_eq_true']
  exact and_congr_right fun _ => and_congr_right fun _ => ⟨fun e => by cases e; rfl, fun e => by rw [e]⟩

/-- The FDU's body writes the decoder state only. -/
theorem fdu_eq_next {s t : State} (h : fdu s = .next t) :
    (frameValid s.fb = true ∧ s.dec.good.toNat + 1 < 2 ^ 32 ∧
      (flagBit s.fb 5 = true → s.dec.lost.toNat + 1 < 2 ^ 32) ∧ t = { s with dec := decodedOf s.fb s.dec }) ∨
    (frameValid s.fb = false ∧ s.dec.errors.toNat + 1 < 2 ^ 32 ∧
      t = { s with dec := { s.dec with errors := s.dec.errors + 1 } }) := by
  simp only [fdu] at h
  split at h
  · exact .inl (execDecOk_eq_next.1 h)
  · exact .inr (execDecErr_eq_next.1 h)

theorem digital_cases (b : Bool) : digital b = 0 ∨ digital b = 2047 := by
  cases b
  · exact .inl rfl
  · exact .inr rfl

end Sys2Proof.Machine
end

