-- ==== Sys2Proof/Laws/Framer.lean ====
section
/-! SUPPORT. What the Frame Synchronizer's operations can do (43_framer.md R201 to R221), once each. -/

namespace Sys2Proof.Machine

theorem syncGap_of_lt {s : State} (h1 : s.fsu.i.toNat + 1 < s.rsLen.toNat)
    (h : (s.rsAt s.fsu.i.toNat).ts.toNat < (s.rsAt (s.fsu.i.toNat + 1)).ts.toNat) :
    syncGap s = some ((s.rsAt (s.fsu.i.toNat + 1)).ts.toNat - (s.rsAt s.fsu.i.toNat).ts.toNat) := by
  simp only [syncGap, if_pos h1, ticks_of_lt h]

theorem execFrLabel_eq_next {s t : State} :
    execFrLabel s = .next t ↔ selFrLabel s = true ∧ fits s.par.evCap (s.ev.length + 1) = true ∧
      t = { s with act := .fsuInit, ev := s.ev ++ [{ kind := .label, line := s.cfg.chIndex }] } := by
  simp only [execFrLabel, whenSelected_eq_next, andThen_eq_next, appendEv_eq_next]
  refine and_congr_right fun _ => ?_
  constructor
  · rintro ⟨u, ⟨h1, rfl⟩, h2⟩
    exact ⟨h1, by cases h2; rfl⟩
  · rintro ⟨h1, rfl⟩
    exact ⟨_, ⟨h1, rfl⟩, rfl⟩

theorem execFrShift_eq_next {s t : State} :
    execFrShift s = .next t ↔ selFrShift s = true ∧
      t = stepEnd { s with fsu := { s.fsu with
        byteStart := if s.fsu.bitcnt = 0 then s.fsu.i else s.fsu.byteStart
        frameStart := if s.fsu.bitcnt = 0 ∧ s.fsu.bytecnt = 0 then s.fsu.i else s.fsu.frameStart
        raw := nextRaw s
        bitcnt := s.fsu.bitcnt + 1 } } := by
  simp only [execFrShift, whenSelected_eq_next]
  exact and_congr_right fun _ => ⟨fun e => by cases e; rfl, fun e => by rw [e]⟩

/-- The completed word: its byte in FB, its event, RAW and BITCNT cleared; then what follows. -/
theorem completeWord_eq_next {s t : State} {rest : State → Out} :
    completeWord s rest = .next t ↔ fits s.par.evCap (s.ev.length + 1) = true ∧
      rest { s with
        fb := s.fb.setIfInBounds s.fsu.bytecnt.toNat (dataByte (nextRaw s))
        ev := s.ev ++ [byteEvent s (nextRaw s)]
        fsu := { s.fsu with raw := 0, bitcnt := 0 } } = .next t := by
  simp only [completeWord, andThen_eq_next, appendEv_eq_next]
  constructor
  · rintro ⟨u, ⟨hf, rfl⟩, e⟩
    exact ⟨hf, e⟩
  · rintro ⟨hf, e⟩
    exact ⟨_, ⟨hf, rfl⟩, e⟩

theorem execFrWord_eq_next {s t : State} :
    execFrWord s = .next t ↔ selFrWord s = true ∧ fits s.par.evCap (s.ev.length + 1) = true ∧
      t = stepEnd { s with
        fb := s.fb.setIfInBounds s.fsu.bytecnt.toNat (dataByte (nextRaw s))
        ev := s.ev ++ [byteEvent s (nextRaw s)]
        fsu := { s.fsu with raw := 0, bitcnt := 0, bytecnt := s.fsu.bytecnt + 1 } } := by
  simp only [execFrWord, whenSelected_eq_next, completeWord_eq_next]
  exact and_congr_right fun _ => and_congr_right fun _ => ⟨fun e => by cases e; rfl, fun e => by rw [e]⟩

theorem closeFrame_eq_next {s t : State} :
    closeFrame s = .next t ↔ fits s.par.evCap (s.ev.length + 1) = true ∧
      t = { s with
        ev := s.ev ++ [frameEvent s (lossPct s)]
        fb := Vector.replicate 25 0
        prevLoss := lossPct s
        fsu := { s.fsu with bytecnt := 0 } } := by
  simp only [closeFrame, andThen_eq_next, appendEv_eq_next]
  constructor
  · rintro ⟨u, ⟨hf, rfl⟩, e⟩
    exact ⟨hf, by cases e; rfl⟩
  · rintro ⟨hf, rfl⟩
    exact ⟨_, ⟨hf, rfl⟩, rfl⟩

/-- FR.FRAME: the twenty-fifth word, FRAME_COUNT + 1, the decode, the frame event, the end of the step. -/
theorem execFrFrame_eq_next {s t : State} :
    execFrFrame s = .next t ↔ selFrFrame s = true ∧ fits s.par.evCap (s.ev.length + 1) = true ∧
      s.frameCount.toNat + 1 < 2 ^ 32 ∧ ∃ d c,
      fdu { s with
        fb := s.fb.setIfInBounds s.fsu.bytecnt.toNat (dataByte (nextRaw s))
        ev := s.ev ++ [byteEvent s (nextRaw s)]
        fsu := { s.fsu with raw := 0, bitcnt := 0 }
        frameCount := s.frameCount + 1 } = .next d ∧
      closeFrame d = .next c ∧ t = stepEnd c := by
  simp only [execFrFrame, whenSelected_eq_next, completeWord_eq_next, counterUp_eq_next, andThen_eq_next]
  refine and_congr_right fun _ => and_congr_right fun _ => and_congr_right fun _ => exists_congr fun d => ?_
  constructor
  · rintro ⟨hd, c, hc, e⟩
    exact ⟨c, hd, hc, by cases e; rfl⟩
  · rintro ⟨c, hd, hc, rfl⟩
    exact ⟨hd, c, hc, rfl⟩

theorem execFrDesync_eq_next {s t : State} :
    execFrDesync s = .next t ↔ selFrDesync s = true ∧ t = stepEnd { s with
      fb := Vector.replicate 25 0
      fsu := { s.fsu with raw := 0, bitcnt := 0, bytecnt := 0 } } := by
  simp only [execFrDesync, whenSelected_eq_next]
  exact and_congr_right fun _ => ⟨fun e => by cases e; rfl, fun e => by rw [e]; rfl⟩

theorem execFrTail_eq_next {s t : State} :
    execFrTail s = .next t ↔ selFrTail s = true ∧ t = stepEnd s := by
  simp only [execFrTail, whenSelected_eq_next]
  exact and_congr_right fun _ => ⟨fun e => by cases e; rfl, fun e => by rw [e]⟩

/-- A step of the walk is one of its five operations. -/
theorem fsuStep_eq_next {s t : State} (h : fsuStep s = .next t) :
    execFrShift s = .next t ∨ execFrWord s = .next t ∨ execFrFrame s = .next t ∨ execFrDesync s = .next t ∨
    execFrTail s = .next t := by
  simp only [fsuStep] at h
  split at h
  · exact .inl h
  split at h
  · exact .inr (.inl h)
  split at h
  · exact .inr (.inr (.inl h))
  split at h
  · exact .inr (.inr (.inr (.inl h)))
  split at h
  · exact .inr (.inr (.inr (.inr h)))
  · cases h

/-- A step of the walk writes what an FSU pass may write and nothing else, and reports one progress value. -/
theorem fsuStep_only {s t : State} (h : fsuStep s = .next t) :
    t = { s with
      dec := t.dec
      frameCount := t.frameCount
      prevLoss := t.prevLoss
      fb := t.fb
      fsu := { t.fsu with i := s.fsu.i + 1 }
      ev := t.ev
      progress := progressPct (s.fsu.i.toNat + 1) s.rsLen.toNat
      prog := s.prog ++ [progressPct (s.fsu.i.toNat + 1) s.rsLen.toNat] } := by
  rcases fsuStep_eq_next h with h | h | h | h | h
  · obtain ⟨-, rfl⟩ := execFrShift_eq_next.1 h; rfl
  · obtain ⟨-, -, rfl⟩ := execFrWord_eq_next.1 h; rfl
  · obtain ⟨-, -, -, d, c, hd, hc, rfl⟩ := execFrFrame_eq_next.1 h
    obtain ⟨-, rfl⟩ := closeFrame_eq_next.1 hc
    rcases fdu_eq_next hd with ⟨-, -, -, rfl⟩ | ⟨-, -, rfl⟩ <;> rfl
  · obtain ⟨-, rfl⟩ := execFrDesync_eq_next.1 h; rfl
  · obtain ⟨-, rfl⟩ := execFrTail_eq_next.1 h; rfl

/-- What every step of the walk keeps holds after it. -/
theorem fsuLoop_keeps (P : State → Prop) (hstep : ∀ s t, P s → fsuStep s = .next t → P t) {n : Nat} {s t : State}
    (h : fsuLoop n s = .next t) (hs : P s) : P t := by
  induction n generalizing s with
  | zero => cases h; exact hs
  | succ n ih =>
    obtain ⟨u, h1, h2⟩ := andThen_eq_next.1 h
    exact ih h2 (hstep s u hs h1)

/-- A pass: the label, then the walk over all of RS. -/
theorem fsuBody_eq_next {s t : State} : fsuBody s = .next t ↔ ∃ u, execFrLabel (fsuBegin s) = .next u ∧
    fsuLoop u.rsLen.toNat (fsuInit u) = .next t := by
  simp only [fsuBody, andThen_eq_next]

/-- The FSU's body writes what a pass may write, and nothing else. -/
theorem fsuBody_only {s t : State} (h : fsuBody s = .next t) :
    t = { s with
      act := t.act
      dec := t.dec
      frameCount := t.frameCount
      prevLoss := t.prevLoss
      progress := t.progress
      fb := t.fb
      fsu := t.fsu
      ev := t.ev
      prog := t.prog } := by
  obtain ⟨u, h1, h2⟩ := fsuBody_eq_next.1 h
  obtain ⟨-, -, rfl⟩ := execFrLabel_eq_next.1 h1
  refine fsuLoop_keeps (fun x => x = { s with
      act := x.act
      dec := x.dec
      frameCount := x.frameCount
      prevLoss := x.prevLoss
      progress := x.progress
      fb := x.fb
      fsu := x.fsu
      ev := x.ev
      prog := x.prog }) (fun x y hx hy => ?_) h2 rfl
  rw [fsuStep_only hy, hx]

end Sys2Proof.Machine
end

