-- ==== Sys2Proof/Laws/Resampler.lean ====
section
/-! SUPPORT. What the Bit Resampler's operations can do (41_resampler.md R154 to R163), once each. -/

namespace Sys2Proof.Machine

theorem scanGap_of_lt {s : State} (h1 : 1 ≤ s.rsu.j.toNat) (h2 : s.rsu.j.toNat < s.cfg.inLen.toNat)
    (h : (s.inAt (s.rsu.j.toNat - 1)).ts.toNat < (s.inAt s.rsu.j.toNat).ts.toNat) :
    scanGap s = some ((s.inAt s.rsu.j.toNat).ts.toNat - (s.inAt (s.rsu.j.toNat - 1)).ts.toNat) := by
  simp only [scanGap, if_pos (And.intro h1 h2), inGap, ticks_of_lt h]

theorem edgeGap_of_lt {s : State} (h1 : s.rsu.k.toNat + 1 < s.cfg.inLen.toNat)
    (h : (s.inAt s.rsu.k.toNat).ts.toNat < (s.inAt (s.rsu.k.toNat + 1)).ts.toNat) :
    edgeGap s = some ((s.inAt (s.rsu.k.toNat + 1)).ts.toNat - (s.inAt s.rsu.k.toNat).ts.toNat) := by
  simp only [edgeGap, if_pos h1, inGap, ticks_of_lt h]

/-- A memory that takes n records of a frame takes them all, at their uniform timestamps, and no other record changes. -/
theorem appendBits_of_fits (b : Bool) (n m : Nat) (s : State)
    (h : n = 0 ∨ fits s.par.rsCap (s.rsLen.toNat + n) = true) :
    ∃ t, appendBits b n m s = .next t ∧ t.rsLen.toNat = s.rsLen.toNat + n ∧
      (∀ a, t.rsMem.read a = if s.rsLen.toNat ≤ a ∧ a < s.rsLen.toNat + n then
        some { bit := b, ts := bitTime s (m + (a - s.rsLen.toNat)) } else s.rsMem.read a) ∧
      (s.rsMem.wf = true → t.rsMem.wf = true) ∧ t = { s with rsLen := t.rsLen, rsMem := t.rsMem } := by
  induction n generalizing m s with
  | zero => exact ⟨s, rfl, rfl, by simp, id, rfl⟩
  | succ n ih =>
    have h : fits s.par.rsCap (s.rsLen.toNat + (n + 1)) = true := by simpa using h
    have hlt := lt_of_fits h
    have h1 : fits s.par.rsCap (s.rsLen.toNat + 1) = true := fits_mono h (by omega)
    have hl : (s.rsLen + 1).toNat = s.rsLen.toNat + 1 := toNat_add_one (by omega)
    simp only [appendBits, appendRs, h1, if_true, andThen_next]
    obtain ⟨t, e1, e2, e3, e4, e5⟩ := ih (m + 1)
      { s with rsMem := s.rsMem.write s.rsLen.toNat { bit := b, ts := bitTime s m }, rsLen := s.rsLen + 1 }
      (.inr (by simp only [hl]; exact fits_mono h (by omega)))
    refine ⟨t, e1, by rw [e2]; simp only [hl]; omega, fun a => ?_, fun hw => e4 (Memory.wf_write hw _ _), e5⟩
    rw [e3 a]
    simp only [hl, Memory.read_write]
    by_cases c : a = s.rsLen.toNat
    · subst c; simp
    · by_cases d : s.rsLen.toNat + 1 ≤ a ∧ a < s.rsLen.toNat + 1 + n
      · have : m + 1 + (a - (s.rsLen.toNat + 1)) = m + (a - s.rsLen.toNat) := by omega
        rw [if_pos d, if_pos (by omega), this]
        rfl
      · rw [if_neg d, if_neg c, if_neg (by omega)]

/-- Records are appended only where they fit. -/
theorem fits_of_appendBits {b : Bool} {n m : Nat} {s t : State} (h : appendBits b n m s = .next t) :
    n = 0 ∨ fits s.par.rsCap (s.rsLen.toNat + n) = true := by
  induction n generalizing m s with
  | zero => exact .inl rfl
  | succ n ih =>
    simp only [appendBits, andThen_eq_next, appendRs_eq_next] at h
    obtain ⟨u, ⟨h1, rfl⟩, h2⟩ := h
    have hl : (s.rsLen + 1).toNat = s.rsLen.toNat + 1 := toNat_add_one (lt_of_fits h1)
    rcases ih h2 with rfl | h3
    · exact .inr h1
    · simp only [hl] at h3
      exact .inr (by rw [← h3]; congr 1; omega)

/-- n records of one level after the COUNT already emitted: when they are emitted, and what that leaves. -/
theorem emitBits_of_fits (b : Bool) (n : Nat) (s : State)
    (h : n = 0 ∨ fits s.par.rsCap (s.rsLen.toNat + n) = true) :
    ∃ t, emitBits b n s = .next t ∧ t.rsLen.toNat = s.rsLen.toNat + n ∧
      (∀ a, t.rsMem.read a = if s.rsLen.toNat ≤ a ∧ a < s.rsLen.toNat + n then
        some { bit := b, ts := bitTime s (s.rsu.count + (a - s.rsLen.toNat)) } else s.rsMem.read a) ∧
      (s.rsMem.wf = true → t.rsMem.wf = true) ∧
      t = { s with rsLen := t.rsLen, rsMem := t.rsMem, rsu := { s.rsu with count := s.rsu.count + n } } := by
  obtain ⟨t, e1, e2, e3, e4, e5⟩ := appendBits_of_fits b n s.rsu.count s h
  refine ⟨{ t with rsu := { t.rsu with count := t.rsu.count + n } }, by simp [emitBits, e1], e2, e3, e4, ?_⟩
  rw [e5]

theorem fits_of_emitBits {b : Bool} {n : Nat} {s t : State} (h : emitBits b n s = .next t) :
    n = 0 ∨ fits s.par.rsCap (s.rsLen.toNat + n) = true := by
  simp only [emitBits, andThen_eq_next] at h
  obtain ⟨u, h, -⟩ := h
  exact fits_of_appendBits h

/-- What emitting n records leaves, when it answers a next state. -/
theorem emitBits_eq_next {b : Bool} {n : Nat} {s t : State} (h : emitBits b n s = .next t) :
    t.rsLen.toNat = s.rsLen.toNat + n ∧
    (∀ a, t.rsMem.read a = if s.rsLen.toNat ≤ a ∧ a < s.rsLen.toNat + n then
      some { bit := b, ts := bitTime s (s.rsu.count + (a - s.rsLen.toNat)) } else s.rsMem.read a) ∧
    (s.rsMem.wf = true → t.rsMem.wf = true) ∧
    t = { s with rsLen := t.rsLen, rsMem := t.rsMem, rsu := { s.rsu with count := s.rsu.count + n } } := by
  obtain ⟨u, e, r⟩ := emitBits_of_fits b n s (fits_of_emitBits h)
  obtain rfl : u = t := by simpa [h, eq_comm] using e
  exact r

theorem execRsScan_eq_next {s t : State} :
    execRsScan s = .next t ↔ selRsScan s = true ∧ t = { s with rsu := { s.rsu with j := s.rsu.j + 1 } } := by
  simp only [execRsScan, whenSelected_eq_next]
  exact and_congr_right fun _ => ⟨fun e => by cases e; rfl, fun e => by rw [e]⟩

theorem execRsStart_eq_next {s t : State} :
    execRsStart s = .next t ↔ selRsStart s = true ∧
      t = { s with
        act := .inFrame
        rsu := { s.rsu with t0 := (s.inAt s.rsu.j.toNat).ts, count := 0, k := s.rsu.j, clipped := false } } := by
  simp only [execRsStart, whenSelected_eq_next]
  exact and_congr_right fun _ => ⟨fun e => by cases e; rfl, fun e => by rw [e]⟩

theorem execRsEdge_eq_next {s t : State} :
    execRsEdge s = .next t ↔ selRsEdge s = true ∧ ∃ u, emitBits (frameLevel s) (edgeBits s) s = .next u ∧
      t = { u with rsu := { u.rsu with k := u.rsu.k + 1 } } := by
  simp only [execRsEdge, whenSelected_eq_next, andThen_eq_next]
  exact and_congr_right fun _ => exists_congr fun _ => and_congr_right fun _ =>
    ⟨fun e => by cases e; rfl, fun e => by rw [e]⟩

theorem execRsFill_eq_next {s t : State} :
    execRsFill s = .next t ↔ selRsFill s = true ∧
      emitBits (frameLevel s) (300 - s.rsu.count) s = .next t := by
  simp only [execRsFill, whenSelected_eq_next, Config.frameBits]

theorem execRsClip_eq_next {s t : State} :
    execRsClip s = .next t ↔ selRsClip s = true ∧
      emitBits false (300 - s.rsu.count) { s with rsu := { s.rsu with clipped := true } } = .next t := by
  simp only [execRsClip, whenSelected_eq_next, Config.frameBits]

theorem execRsTrail_eq_next {s t : State} :
    execRsTrail s = .next t ↔ selRsTrail s = true ∧ fits s.par.rsCap (s.rsLen.toNat + 1) = true ∧
      t = { s with
        rsMem := s.rsMem.write s.rsLen.toNat { bit := false, ts := bitTime s 300 }
        rsLen := s.rsLen + 1
        act := .scan
        rsu := { s.rsu with j := s.rsu.k + 1 } } := by
  simp only [execRsTrail, whenSelected_eq_next, andThen_eq_next, appendRs_eq_next]
  refine and_congr_right fun _ => ?_
  constructor
  · rintro ⟨u, ⟨h1, rfl⟩, h2⟩
    exact ⟨h1, by cases h2; rfl⟩
  · rintro ⟨h1, rfl⟩
    exact ⟨_, ⟨h1, rfl⟩, rfl⟩

/-- A step of the RSU is one of its six operations. -/
theorem rsuStep_eq_next {s t : State} (h : rsuStep s = .next t) :
    execRsScan s = .next t ∨ execRsStart s = .next t ∨ execRsEdge s = .next t ∨ execRsFill s = .next t ∨
    execRsClip s = .next t ∨ execRsTrail s = .next t := by
  simp only [rsuStep] at h
  split at h
  · exact .inl h
  split at h
  · exact .inr (.inl h)
  split at h
  · exact .inr (.inr (.inl h))
  split at h
  · exact .inr (.inr (.inr (.inl h)))
  split at h
  · exact .inr (.inr (.inr (.inr (.inl h))))
  split at h
  · exact .inr (.inr (.inr (.inr (.inr h))))
  · cases h

/-- The RSU's operations write RS, the RSU's registers and its place in the walk, and nothing else. -/
theorem rsuStep_only {s t : State} (h : rsuStep s = .next t) :
    t = { s with act := t.act, rsLen := t.rsLen, rsMem := t.rsMem, rsu := t.rsu } := by
  rcases rsuStep_eq_next h with h | h | h | h | h | h
  · obtain ⟨-, rfl⟩ := execRsScan_eq_next.1 h; rfl
  · obtain ⟨-, rfl⟩ := execRsStart_eq_next.1 h; rfl
  · obtain ⟨-, u, g, rfl⟩ := execRsEdge_eq_next.1 h
    rw [(emitBits_eq_next g).2.2.2]
  · obtain ⟨-, g⟩ := execRsFill_eq_next.1 h
    rw [(emitBits_eq_next g).2.2.2]
  · obtain ⟨-, g⟩ := execRsClip_eq_next.1 h
    rw [(emitBits_eq_next g).2.2.2]
  · obtain ⟨-, -, rfl⟩ := execRsTrail_eq_next.1 h; rfl

/-- What every step of the RSU keeps holds after the walk. -/
theorem rsuLoop_keeps (P : State → Prop) (hstep : ∀ s t, P s → rsuStep s = .next t → P t) {n : Nat} {s t : State}
    (h : rsuLoop n s = .next t) (hs : P s) : P t := by
  induction n generalizing s with
  | zero => cases h; exact hs
  | succ n ih =>
    simp only [rsuLoop] at h
    split at h
    · cases h; exact hs
    · obtain ⟨u, h1, h2⟩ := andThen_eq_next.1 h
      exact ih h2 (hstep s u hs h1)

/-- The RSU's body writes RS, the RSU's registers and its place in the walk, and nothing else. -/
theorem rsuBody_only {s t : State} (h : rsuBody s = .next t) :
    t = { s with act := t.act, rsLen := t.rsLen, rsMem := t.rsMem, rsEra := s.rsEra + 1, rsu := t.rsu } :=
  rsuLoop_keeps
    (fun x => x = { s with act := x.act, rsLen := x.rsLen, rsMem := x.rsMem, rsEra := s.rsEra + 1, rsu := x.rsu })
    (fun x y hx hy => by rw [rsuStep_only hy, hx]) h rfl

end Sys2Proof.Machine
end

