-- ==== Sys2Proof/Laws/Commands.lean ====
section
/-! SUPPORT. What each host command can do (40_commands.md R133 to R142), once each: raise, or run its units. -/

namespace Sys2Proof.Machine

theorem finish_eq (s : State) :
    finish s = { s with status := { s.status with done := true }, act := .idle, inRun := false } := rfl

/-- What the checks on IN ask, for a command that reads the records a .. e - 1: written records below 2^63, and rising
stamps where the command reads a pair or the host wrote both (R336). -/
theorem inputOkAt_iff {s : State} {a e k : Nat} : inputOkAt s a e k = true ↔
    (∀ r, s.inMem.read k = some r → r.ts.toNat < 2 ^ 63) ∧
    (k + 1 < s.cfg.inLen.toNat →
      (a ≤ k ∧ k + 1 < e) ∨ ((s.inMem.read k).isSome = true ∧ (s.inMem.read (k + 1)).isSome = true) →
      (s.inAt k).ts.toNat < (s.inAt (k + 1)).ts.toNat ∧ (s.inAt (k + 1)).ts.toNat < 2 ^ 63) := by
  simp only [inputOkAt, inWritten, Bool.and_eq_true, Bool.or_eq_true, Bool.not_eq_true', Bool.and_eq_false_iff,
    decide_eq_true_eq, Bool.or_eq_false_iff, decide_eq_false_iff_not]
  refine and_congr (by cases s.inMem.read k <;> simp) ?_
  by_cases h1 : k + 1 < s.cfg.inLen.toNat <;> by_cases h2 : a ≤ k ∧ k + 1 < e <;>
    cases (s.inMem.read k).isSome <;> cases (s.inMem.read (k + 1)).isSome <;> simp [h1, h2]

/-- A guard in front of a body answers nothing of its own: it refuses, or the body runs. -/
theorem guard_eq_next {c : Bool} {r : Refusal} {body : Out} {t : State} :
    (if !c then .refused r else body) = Host.Outcome.next t ↔ c = true ∧ body = .next t := by
  cases c <;> simp

/-- The checks on IN: the body runs exactly where they hold. -/
theorem withInput_eq_next {s t : State} {a e : Nat} {body : Out} :
    withInput s a e body = .next t ↔ fits s.par.inCap s.cfg.inLen.toNat = true ∧
      (∀ k, k < s.cfg.inLen.toNat → inputOkAt s a e k = true) ∧ body = .next t := by
  simp only [withInput, guard_eq_next, List.all_eq_true, List.mem_range]

/-- The checks on RS: the body runs exactly where they hold. -/
theorem withResampled_eq_next {s t : State} {body : Out} :
    withResampled s body = .next t ↔ fits s.par.rsCap s.rsLen.toNat = true ∧
      (∀ k, k + 1 < s.rsLen.toNat → (s.rsAt k).ts.toNat < (s.rsAt (k + 1)).ts.toNat) ∧ body = .next t := by
  simp only [withResampled, guard_eq_next, List.all_eq_true, List.mem_range, decide_eq_true_eq, Nat.lt_sub_iff_add_lt]

/-- The mode part of RUN writes MODE_RESULT, through the MDU's registers, and nothing else. -/
theorem runMode_only {s t : State} (h : runMode s = .next t) :
    t = { s with act := t.act, modeEff := t.modeEff, modeFromGaps := t.modeFromGaps, mdu := t.mdu } := by
  simp only [runMode] at h
  split at h
  · obtain ⟨u, h1, h2⟩ := andThen_eq_next.1 h
    cases h2
    rw [mduBody_only h1]
    rfl
  · cases h; rfl

/-- RUN raises, or runs the MDU (when MODE is 0), the RSU and the FSU and completes. -/
theorem execRun_eq_next {s t : State} (h : execRun s = .next t) :
    (s.cfg.sampleRate.toNat < 200000 ∧ t = s.prologue.takeException .preconditionFailure) ∨
    (s.cfg.mode = 3 ∧ t = s.prologue.takeException .invalidArgument) ∨
    (s.cfg.mode ≠ 3 ∧ ∃ a b c, runMode { s.prologue with inRun := true } = .next a ∧ rsuBody a = .next b ∧
      fsuBody b = .next c ∧ t = finish c) := by
  rcases precheck_eq_next.1 h with ⟨-, h⟩ | ⟨h1, h⟩
  · split at h
    · rename_i hm
      exact .inr (.inl ⟨hm, raise_eq_next.1 h⟩)
    · rename_i hm
      obtain ⟨-, -, h⟩ := withInput_eq_next.1 h
      obtain ⟨a, ha, h⟩ := andThen_eq_next.1 h
      obtain ⟨b, hb, h⟩ := andThen_eq_next.1 h
      obtain ⟨c, hc, h⟩ := andThen_eq_next.1 h
      cases h
      exact .inr (.inr ⟨hm, a, b, c, ha, hb, hc, rfl⟩)
  · exact .inl ⟨h1, h⟩

/-- RESAMPLE raises, or runs the RSU and completes. -/
theorem execResample_eq_next {s t : State} (h : execResample s = .next t) :
    (s.cfg.sampleRate.toNat < 200000 ∧ t = s.prologue.takeException .preconditionFailure) ∨
    ∃ b, rsuBody { s.prologue with inRun := false } = .next b ∧ t = finish b := by
  rcases precheck_eq_next.1 h with ⟨-, h⟩ | ⟨h1, h⟩
  · obtain ⟨-, -, h⟩ := withInput_eq_next.1 h
    obtain ⟨b, hb, h⟩ := andThen_eq_next.1 h
    cases h
    exact .inr ⟨b, hb, rfl⟩
  · exact .inl ⟨h1, h⟩

/-- FRAME raises, or runs the FSU and completes. -/
theorem execFrame_eq_next {s t : State} (h : execFrame s = .next t) :
    (s.cfg.sampleRate.toNat < 200000 ∧ t = s.prologue.takeException .preconditionFailure) ∨
    ∃ b, fsuBody { s.prologue with inRun := false } = .next b ∧ t = finish b := by
  rcases precheck_eq_next.1 h with ⟨-, h⟩ | ⟨h1, h⟩
  · obtain ⟨-, -, h⟩ := withResampled_eq_next.1 h
    obtain ⟨b, hb, h⟩ := andThen_eq_next.1 h
    cases h
    exact .inr ⟨b, hb, rfl⟩
  · exact .inl ⟨h1, h⟩

/-- DECODE raises, or runs the FDU and completes. -/
theorem execDecode_eq_next {s t : State} (h : execDecode s = .next t) :
    (s.cfg.fbLen.toNat ≠ 25 ∧ t = s.prologue.takeException .invalidArgument) ∨
    ∃ b, fdu s.prologue = .next b ∧ t = b.epilogue := by
  simp only [execDecode] at h
  split at h
  · rename_i hl
    exact .inl ⟨hl, raise_eq_next.1 h⟩
  · obtain ⟨b, hb, h⟩ := andThen_eq_next.1 h
    cases h
    exact .inr ⟨b, hb, rfl⟩

/-- MODEDET raises, or runs the MDU over its range, stores the result and completes. -/
theorem execModedet_eq_next {s t : State} (h : execModedet s = .next t) :
    (s.cfg.sampleRate.toNat < 200000 ∧ t = s.prologue.takeException .preconditionFailure) ∨
    t = s.prologue.takeException .invalidArgument ∨
    ∃ b, mduBody s.cfg.rangeStart.toNat s.cfg.rangeEnd.toNat { s.prologue with inRun := false } = .next b ∧
      t = finish (storeMode b) := by
  rcases precheck_eq_next.1 h with ⟨-, h⟩ | ⟨h1, h⟩
  · split at h
    · exact .inr (.inl (raise_eq_next.1 h))
    · obtain ⟨-, -, h⟩ := withInput_eq_next.1 h
      obtain ⟨b, hb, h⟩ := andThen_eq_next.1 h
      cases h
      exact .inr (.inr ⟨b, hb, rfl⟩)
  · exact .inl ⟨h1, h⟩

/-- A reserved word raises IllegalCommand; the term with a legal word is refused. -/
theorem execReservedCommand_eq_next {w : Word} {s t : State} (h : execReservedCommand w s = .next t) :
    t = s.prologue.takeException .illegalCommand := by
  simp only [execReservedCommand] at h
  split at h
  · exact raise_eq_next.1 h
  · cases h

end Sys2Proof.Machine
end

