-- ==== Sys2Proof/Laws/PerInstr.lean ====
section
/-! SUPPORT. The family Selection: how each operation of R103 comes to run. Either a host access has its encoding (a
command word or a view), or no host access selects it at all (a micro-operation, which its unit's state selects). -/

namespace Sys2Proof

/-- Whatever word a host writes to CMD, the operation it selects has a command word. -/
theorem encodeCmd_decodeCmd_isSome (w : Word) : (encodeCmd (decodeCmd w)).isSome = true := by
  simp only [decodeCmd]
  split
  · rfl
  · split <;> rfl

/-- An operation that a host access selects has an encoding. -/
theorem encode_isSome_of_decodeHost {a : HostAct} {i : Instr} (h : decodeHost a = some i) : (encode i).isSome = true := by
  cases a with
  | writeCsr n w =>
    simp only [decodeHost] at h
    split at h
    · cases h
      have := encodeCmd_decodeCmd_isSome w
      simp only [encode]
      split <;> first | rfl | simpa using this
    · cases h
  | readCsr n =>
    simp only [decodeHost] at h
    split at h
    · cases h; rfl
    · split at h
      · cases h; rfl
      · cases h
  | _ => cases h

/-- An operation without an encoding is selected by no host access. -/
theorem decodeHost_ne {i : Instr} (h : encode i = none) (a : HostAct) : decodeHost a ≠ some i := by
  intro e
  have := encode_isSome_of_decodeHost e
  rw [h] at this
  cases this

end Sys2Proof

/-- How the operation i comes to run. -/
def Sys2Proof.Laws.Selection.Statement (i : Sys2Proof.Instr) : Prop :=
  (∃ a, Sys2Proof.encode i = some a) ∨ ∀ a, Sys2Proof.decodeHost a ≠ some i

namespace Sys2Proof.Laws

theorem Selection.nop : Selection.Statement .nop := .inl ⟨_, rfl⟩
theorem Selection.sreset : Selection.Statement .sreset := .inl ⟨_, rfl⟩
theorem Selection.run : Selection.Statement .run := .inl ⟨_, rfl⟩
theorem Selection.resample : Selection.Statement .resample := .inl ⟨_, rfl⟩
theorem Selection.frame : Selection.Statement .frame := .inl ⟨_, rfl⟩
theorem Selection.decode : Selection.Statement .decode := .inl ⟨_, rfl⟩
theorem Selection.modedet : Selection.Statement .modedet := .inl ⟨_, rfl⟩
theorem Selection.reservedCommand (w : Word) : Selection.Statement (.reservedCommand w) := .inl ⟨_, rfl⟩
theorem Selection.rsScan : Selection.Statement .rsScan := .inr (decodeHost_ne rfl)
theorem Selection.rsStart : Selection.Statement .rsStart := .inr (decodeHost_ne rfl)
theorem Selection.rsEdge : Selection.Statement .rsEdge := .inr (decodeHost_ne rfl)
theorem Selection.rsFill : Selection.Statement .rsFill := .inr (decodeHost_ne rfl)
theorem Selection.rsClip : Selection.Statement .rsClip := .inr (decodeHost_ne rfl)
theorem Selection.rsTrail : Selection.Statement .rsTrail := .inr (decodeHost_ne rfl)
theorem Selection.mdGap : Selection.Statement .mdGap := .inr (decodeHost_ne rfl)
theorem Selection.mdClassify : Selection.Statement .mdClassify := .inr (decodeHost_ne rfl)
theorem Selection.frLabel : Selection.Statement .frLabel := .inr (decodeHost_ne rfl)
theorem Selection.frShift : Selection.Statement .frShift := .inr (decodeHost_ne rfl)
theorem Selection.frWord : Selection.Statement .frWord := .inr (decodeHost_ne rfl)
theorem Selection.frFrame : Selection.Statement .frFrame := .inr (decodeHost_ne rfl)
theorem Selection.frDesync : Selection.Statement .frDesync := .inr (decodeHost_ne rfl)
theorem Selection.frTail : Selection.Statement .frTail := .inr (decodeHost_ne rfl)
theorem Selection.decOk : Selection.Statement .decOk := .inr (decodeHost_ne rfl)
theorem Selection.decErr : Selection.Statement .decErr := .inr (decodeHost_ne rfl)
theorem Selection.decGood : Selection.Statement .decGood := .inr (decodeHost_ne rfl)
theorem Selection.decCh1 : Selection.Statement .decCh1 := .inr (decodeHost_ne rfl)
theorem Selection.decCh2 : Selection.Statement .decCh2 := .inr (decodeHost_ne rfl)
theorem Selection.decCh3 : Selection.Statement .decCh3 := .inr (decodeHost_ne rfl)
theorem Selection.decCh4 : Selection.Statement .decCh4 := .inr (decodeHost_ne rfl)
theorem Selection.decCh5 : Selection.Statement .decCh5 := .inr (decodeHost_ne rfl)
theorem Selection.decCh6 : Selection.Statement .decCh6 := .inr (decodeHost_ne rfl)
theorem Selection.decCh7 : Selection.Statement .decCh7 := .inr (decodeHost_ne rfl)
theorem Selection.decCh8 : Selection.Statement .decCh8 := .inr (decodeHost_ne rfl)
theorem Selection.decCh9 : Selection.Statement .decCh9 := .inr (decodeHost_ne rfl)
theorem Selection.decCh10 : Selection.Statement .decCh10 := .inr (decodeHost_ne rfl)
theorem Selection.decCh11 : Selection.Statement .decCh11 := .inr (decodeHost_ne rfl)
theorem Selection.decCh12 : Selection.Statement .decCh12 := .inr (decodeHost_ne rfl)
theorem Selection.decCh13 : Selection.Statement .decCh13 := .inr (decodeHost_ne rfl)
theorem Selection.decCh14 : Selection.Statement .decCh14 := .inr (decodeHost_ne rfl)
theorem Selection.decCh15 : Selection.Statement .decCh15 := .inr (decodeHost_ne rfl)
theorem Selection.decCh16 : Selection.Statement .decCh16 := .inr (decodeHost_ne rfl)
theorem Selection.decCh17 : Selection.Statement .decCh17 := .inr (decodeHost_ne rfl)
theorem Selection.decCh18 : Selection.Statement .decCh18 := .inr (decodeHost_ne rfl)
theorem Selection.decLost : Selection.Statement .decLost := .inr (decodeHost_ne rfl)
theorem Selection.decFs : Selection.Statement .decFs := .inr (decodeHost_ne rfl)
theorem Selection.losspct : Selection.Statement .losspct := .inl ⟨_, rfl⟩
theorem Selection.norm (n : Nat) : Selection.Statement (.norm n) := .inl ⟨_, rfl⟩

end Sys2Proof.Laws
end

