-- ==== Sys2Proof/Laws/Step.lean ====
section
/-! SUPPORT. What a step does, by the core's activity and the host's next access, and how the units' walks
(Commands.lean) and the single steps (Sequence.lean) agree on the operation they take. -/

namespace Sys2Proof.Machine

/-- One more step of the RSU's walk counts one more frame exactly where it is RS.START. -/
theorem framesStarted_step {n : Nat} {s t : State} (hd : rsuDone s = false) (h : rsuStep s = .next t) :
    framesStarted (n + 1) s = (if selRsStart s then 1 else 0) + framesStarted n t := by
  simp [framesStarted, hd, h]

/-- A walk that is done starts no more frames. -/
theorem framesStarted_done {n : Nat} {s : State} (hd : rsuDone s = true) : framesStarted n s = 0 := by
  cases n <;> simp [framesStarted, hd]

/-- Inside a command, without a reset, the core takes its next micro-operation or hand-over. -/
theorem step_busy {s : State} (hr : NoReset s) (ha : s.act ≠ .idle) : step s = coreStep s := by
  unfold step
  split
  · rename_i h
    simp [NoReset, h] at hr
  · rw [if_neg ha]
  · rw [if_neg ha]

/-- Between commands, the core serves the host's next access. -/
theorem step_idle {s : State} {a : HostAct} {l : List HostAct} (ha : s.act = .idle) (hh : s.host = a :: l)
    (hr : a ≠ .hardwareReset) : step s = serve exec a { s with host := l } := by
  unfold step
  split
  · rename_i h
    rw [hh] at h
    exact absurd (List.cons.inj h).1 hr
  · rename_i h
    rw [hh] at h
    cases h
  · rename_i b m _ h
    rw [hh] at h
    obtain ⟨rfl, rfl⟩ := List.cons.inj h
    rw [if_pos ha]

/-- Between commands, with no access pending, the core does nothing. -/
theorem step_quiet {s : State} (ha : s.act = .idle) (hh : s.host = []) : step s = .next s := by
  unfold step
  split
  · rename_i h; rw [hh] at h; cases h
  · rw [if_pos ha]
  · rename_i h; rw [hh] at h; cases h

/-- The reset input acts at once. -/
theorem step_reset {s : State} {l : List HostAct} (hh : s.host = .hardwareReset :: l) :
    step s = .next { s with host := l }.hardwareReset := by
  unfold step
  split
  · rename_i h
    rw [hh] at h
    obtain ⟨-, rfl⟩ := List.cons.inj h
    rfl
  · rename_i h; rw [hh] at h; cases h
  · rename_i b m hb h
    rw [hh] at h
    exact absurd (List.cons.inj h).1.symm hb

/-- The RSU's walk takes the operation that the state selects. -/
theorem rsuStep_of_selectOp {s : State} {i : Instr} (ha : s.act = .scan ∨ s.act = .inFrame)
    (h : selectOp s = some i) : rsuStep s = exec i s := by
  rcases ha with ha | ha
  · simp only [selectOp, ha] at h
    simp only [rsuStep]
    split at h
    · rename_i h1; cases h; rw [if_pos h1]; rfl
    · rename_i h1
      split at h
      · rename_i h2; cases h; rw [if_neg h1, if_pos h2]; rfl
      · cases h
  · have h1 : selRsScan s = false := by simp [selRsScan, ha]
    have h2 : selRsStart s = false := by simp [selRsStart, ha]
    simp only [selectOp, ha] at h
    simp only [rsuStep, h1, h2]
    split at h
    · rename_i g1; cases h; simp only [g1]; rfl
    · rename_i g1
      split at h
      · rename_i g2; cases h; simp only [g1, g2]; rfl
      · rename_i g2
        split at h
        · rename_i g3; cases h; simp only [g1, g2, g3]; rfl
        · rename_i g3
          split at h
          · rename_i g4; cases h; simp only [g1, g2, g3, g4]; rfl
          · cases h

/-- The FSU's walk takes the operation that the state selects. -/
theorem fsuStep_of_selectOp {s : State} {i : Instr} (ha : s.act = .fsuWalk) (h : selectOp s = some i) :
    fsuStep s = exec i s := by
  simp only [selectOp, ha] at h
  simp only [fsuStep]
  split at h
  · rename_i g1; cases h; simp only [g1]; rfl
  · rename_i g1
    split at h
    · rename_i g2; cases h; simp only [g1, g2]; rfl
    · rename_i g2
      split at h
      · rename_i g3; cases h; simp only [g1, g2, g3]; rfl
      · rename_i g3
        split at h
        · rename_i g4; cases h; simp only [g1, g2, g3, g4]; rfl
        · rename_i g4
          split at h
          · rename_i g5; cases h; simp only [g1, g2, g3, g4, g5]; rfl
          · cases h

end Sys2Proof.Machine
end

