-- ==== Sys2Proof/Tests/Slice0.lean ====
section
/-! SUPPORT. The model's own tests. First ill-formed terms, then words written out from the spec's encodings, then single
operations against the values of spec/95_test_vectors.md (the vector's name stands in the comment), then one theorem per
statement with hypotheses: a concrete state that meets all of them. -/

namespace Sys2Proof.Tests

-- One kernel evaluation after another: side by side they ask for more threads than a checked run may start.
set_option Elab.async false

open Sys2Proof.Machine

-- ---------------------------------------------------------------- helpers

/-- The outcome is a next state with the property p. -/
def ok (o : Out) (p : State → Bool) : Bool := match o with | .next t => p t | _ => false

/-- The outcome is the given refusal. -/
def refuses (o : Out) (r : Refusal) : Bool := match o with | .refused q => decide (q = r) | _ => false

/-- Records listed as (timestamp, level), from index 0. -/
def inOf (l : List (Nat × Nat)) : Memory InRec :=
  l.zipIdx.map fun e => (e.2, { level := BitVec.ofNat 8 e.1.2, ts := BitVec.ofNat 64 e.1.1 })

/-- Records listed as (timestamp, bit), from index 0. -/
def rsOf (l : List (Nat × Nat)) : Memory RsRec :=
  l.zipIdx.map fun e => (e.2, { bit := e.1.2 == 1, ts := BitVec.ofNat 64 e.1.1 })

/-- An idle core with a capture at `rate` Hz. -/
def capture (rate : Nat) (l : List (Nat × Nat)) : State :=
  { State.reset with cfg := { sampleRate := BitVec.ofNat 32 rate, inLen := BitVec.ofNat 32 l.length }, inMem := inOf l }

/-- An idle core with a resampled stream at `rate` Hz. -/
def stream (rate : Nat) (l : List (Nat × Nat)) : State :=
  { State.reset with
    cfg := { sampleRate := BitVec.ofNat 32 rate }, rsMem := rsOf l, rsLen := BitVec.ofNat 32 l.length }

/-- `s` with IN and RS as after hardware reset: nothing has written them. -/
def unwritten (s : State) : State := { s with inMem := [], rsMem := [] }

/-- An idle core whose frame buffer holds the 200-bit frame f and whose FB_LEN is 25. -/
def framed (f : Nat) : State :=
  { State.reset with fb := bytesOfFrame (BitVec.ofNat 200 f), cfg := { fbLen := 25 } }

/-- The capture with the given gaps, from timestamp 0. -/
def gapsOf (l : List Nat) : List (Nat × Nat) := (l.foldl (fun a g => (a.headD (0, 1)).1 + g |> fun t => (t, 1) :: a)
  [(0, 1)]).reverse

/-- DEC-1 of spec/95: channel 1 = 1000. -/
def dec1 : State := framed 0xF017C000000000000000000000000000000000000000000000

/-- DEC-3 of spec/95, first frame. -/
def dec3 : State := framed 0xF0A60A63D214C9F8F4B0D0A6B1C9FBA89E984AC375E853A000

/-- DEC-6 of spec/95: a bad end byte. -/
def dec6 : State := framed 0xF0000000000000000000000000000000000000000000000001

/-- RS-1 of spec/95. -/
def rs1 : State := capture 1000000 [(0, 0), (5000, 1), (5090, 0), (5100, 1), (5130, 0)]

/-- RS-2 of spec/95. -/
def rs2 : State := capture 1000000 [(0, 0), (5000, 1), (5090, 0), (5100, 1), (5130, 0), (9000, 1)]

/-- FR-1 of spec/95: the twelve bits of 0x783 and one record more. -/
def fr1 : State := stream 200000 [(100, 0), (102, 1), (104, 1), (106, 1), (108, 1), (110, 0), (112, 0), (114, 0),
  (116, 0), (118, 0), (120, 1), (122, 1), (124, 0)]

/-- `s` inside an FSU pass at index i. -/
def walking (s : State) (i bits bytes : Nat) : State :=
  { s with act := .fsuWalk, fsu := { i := BitVec.ofNat 32 i, bitcnt := BitVec.ofNat 4 bits, bytecnt := BitVec.ofNat 5 bytes } }

/-- `s` inside an RSU frame at index k, with `count` bits emitted from timestamp t0. -/
def inside (s : State) (k count t0 : Nat) : State :=
  { s with act := .inFrame, rsu := { k := BitVec.ofNat 32 k, count := count, t0 := BitVec.ofNat 64 t0 } }

/-- `s` scanning at index j. -/
def scanning (s : State) (j : Nat) : State := { s with act := .scan, rsu := { j := BitVec.ofNat 32 j } }

/-- `s` inside an MDU walk, at the pair (q - 1, q) of a range that ends at e. -/
def tallying (s : State) (q e : Nat) (h : Memory Nat) : State := { s with act := .mdu, mdu := { q := q, stop := e, hist := h } }

-- ---------------------------------------------------------------- well-formedness

theorem test_norm_zero_is_ill_formed : (Instr.norm 0).wellFormed = false := by decide
theorem test_norm_nineteen_is_ill_formed : (Instr.norm 19).wellFormed = false := by decide
theorem test_norm_bounds_are_well_formed :
    (Instr.norm 1).wellFormed = true ∧ (Instr.norm 18).wellFormed = true := by decide
theorem test_legal_word_is_no_reserved_command :
    (Instr.reservedCommand 0).wellFormed = false ∧ (Instr.reservedCommand 6).wellFormed = false := by decide
theorem test_reserved_words_are_well_formed :
    (Instr.reservedCommand 7).wellFormed = true ∧ (Instr.reservedCommand 0x10).wellFormed = true := by decide
theorem test_ill_formed_terms_are_refused :
    refuses (exec (.norm 0) State.reset) .illFormed = true ∧ refuses (exec (.norm 19) State.reset) .illFormed = true ∧
    refuses (exec (.reservedCommand 6) State.reset) .illFormed = true := by decide +kernel

-- ---------------------------------------------------------------- decoding, bit by bit

-- R91: ZERO in bits 31:4, OPCODE in bits 3:0.
theorem test_decode_nop : decodeTableWord 32 0b00000000000000000000000000000000 = some .nop := by decide
theorem test_decode_sreset : decodeTableWord 32 0b00000000000000000000000000000001 = some .sreset := by decide
theorem test_decode_run : decodeTableWord 32 0b00000000000000000000000000000010 = some .run := by decide
theorem test_decode_resample : decodeTableWord 32 0b00000000000000000000000000000011 = some .resample := by decide
theorem test_decode_frame : decodeTableWord 32 0b00000000000000000000000000000100 = some .frame := by decide
theorem test_decode_decode : decodeTableWord 32 0b00000000000000000000000000000101 = some .decode := by decide
theorem test_decode_modedet : decodeTableWord 32 0b00000000000000000000000000000110 = some .modedet := by decide
-- CMD-1: the illegal words.
theorem test_decode_reserved :
    ∀ w ∈ [0x00000007, 0x0000000F, 0x00000010, 0x00000012, 0x80000000, 0xFFFFFFFF],
      decodeTableWord 32 w = some (.reservedCommand (BitVec.ofNat 32 w)) := by decide
-- R97: START in bits 199:192, END in bits 7:0; DEC-1, DEC-6, DEC-7, DEC-8.
theorem test_decode_valid_frame :
    decodeTableWord 200 0xF017C000000000000000000000000000000000000000000000 = some .decOk := by decide +kernel
theorem test_decode_error_frames :
    ∀ f ∈ [0xF0000000000000000000000000000000000000000000000001, 0x0F000000000000000000000000000000000000000000000000,
      0xF10000000000000000000000000000000000000000000030FF, 0], decodeTableWord 200 f = some .decErr := by
  decide +kernel
-- R31: LOSS_PCT is 0x10, NORM1 .. NORM18 are 0x40 .. 0x51.
theorem test_decode_views :
    decodeHost (.readCsr 0x10) = some .losspct ∧ decodeHost (.readCsr 0x40) = some (.norm 1) ∧
    decodeHost (.readCsr 0x51) = some (.norm 18) ∧ decodeHost (.readCsr 0x3F) = none ∧
    decodeHost (.readCsr 0x52) = none := by decide
-- R92, R93: LEVEL and BIT above the 64 bits of TS.
theorem test_record_words :
    unpackIn 0xA50000000000001388#72 = { level := 0xA5, ts := 5000 } ∧
    unpackRs 0x10000000000001388#65 = { bit := true, ts := 5000 } := by decide
-- R97: FB[0] in the high bits.
theorem test_frame_bytes :
    fbAt (bytesOfFrame 0xF017C0000000000000000000000000000000000000000000AB#200) 0 = 0xF0 ∧
    fbAt (bytesOfFrame 0xF017C0000000000000000000000000000000000000000000AB#200) 1 = 0x17 ∧
    fbAt (bytesOfFrame 0xF017C0000000000000000000000000000000000000000000AB#200) 24 = 0xAB := by decide +kernel
-- The host's question: the first step after reset runs the word.
theorem test_fetch_runs_the_word :
    ok (step (State.reset.withFetchWord 32 7)) (fun t => statusWord t == 0x430) = true ∧
    ok (step (State.reset.withFetchWord 200 0xF017C000000000000000000000000000000000000000000000))
      (fun t => chAt t.dec.ch 1 == 1000 && t.dec.good == 1) = true := by decide +kernel

-- ---------------------------------------------------------------- one operation each

-- CMD-2: NOP, an illegal word, SRESET.
theorem test_nop : ok (exec .nop State.reset) (fun t => statusWord t == 1) = true := by decide +kernel
theorem test_reserved_command :
    ok (exec (.reservedCommand 7) State.reset) (fun t => statusWord t == 0x430) = true := by decide +kernel
theorem test_sreset :
    ok (exec .sreset { dec1 with dec := { good := 5 }, frameCount := 9, rsLen := 3, status := { err := 1, errlog := 5 } })
      (fun t => statusWord t == 1 && t.dec.good == 0 && t.frameCount == 0 && t.rsLen == 0 && t.cfg.fbLen == 25
        && fbAt t.fb 0 == 0) = true := by decide +kernel
-- CMD-5 and CMD-4: RUN on an empty capture; RUN with MODE 3.
theorem test_run_empty :
    ok (exec .run (capture 1000000 [])) (fun t =>
      modeResultWord t == 0x2 && t.rsLen == 0 && t.ev.length == 1 && t.prog == [] && t.progress == 0 && t.status.done) =
      true := by decide +kernel
theorem test_run_mode_three :
    ok (exec .run { State.reset with cfg := { sampleRate := 200000, mode := 3 } })
      (fun t => t.status.err == 2 && !t.status.done && t.ev == []) = true := by decide +kernel
-- RS-5 (a): both gaps are exactly FRAME_GAP. CMD-3: a rate of 199999.
theorem test_resample_no_frame :
    ok (exec .resample (capture 1000000 [(0, 0), (3000, 1), (6000, 0)])) (fun t => t.rsLen == 0 && t.status.done) =
      true := by decide +kernel
theorem test_resample_low_rate :
    ok (exec .resample (capture 199999 [])) (fun t => t.status.err == 1 && statusWord t == 0x110) = true := by
  decide +kernel
-- RS-5 (c), CMD-5 and R138 on records that nothing has written: none is read.
theorem test_unwritten_records_do_not_stop :
    ok (exec .resample (unwritten (capture 1000000 [(0, 0)]))) (fun t => t.rsLen == 0 && t.status.done) = true ∧
    ok (exec .run (unwritten (capture 1000000 [(0, 0)]))) (fun t => modeResultWord t == 2 && t.ev.length == 1) =
      true ∧
    ok (exec .frame (unwritten (stream 200000 [(0, 0)]))) (fun t => t.ev.length == 1 && t.prog == [100]) = true ∧
    ok (exec .modedet (unwritten (capture 1000000 [(0, 0), (1, 0), (2, 0)])))
      (fun t => modeResultWord t == 2 && t.status.done) = true := by decide +kernel
-- FR-1: one word.
theorem test_frame_one_word :
    ok (exec .frame fr1) (fun t =>
      fbAt t.fb 0 == 0xF0 && t.fsu.bytecnt == 1 && t.fsu.bitcnt == 0 && t.fsu.raw == 0 && t.frameCount == 0 &&
      t.prog == [7, 15, 23, 30, 38, 46, 53, 61, 69, 76, 84, 92, 100] && t.ev.length == 2 &&
      t.ev[1]? == some { kind := .byte, line := 0, startIdx := 0, endIdx := 12, startTime := 100, endTime := 124,
                         value := 0x783 }) = true := by decide +kernel
-- FR-3 (c): an empty stream.
theorem test_frame_empty :
    ok (exec .frame (stream 200000 [])) (fun t => t.ev.length == 1 && t.prog == [] && t.progress == 0) = true := by
  decide +kernel
-- DEC-1, DEC-10.
theorem test_decode_frame_command :
    ok (exec .decode dec1) (fun t => chAt t.dec.ch 1 == 1000 && t.dec.good == 1 && statusWord t == 3) = true := by
  decide +kernel
theorem test_decode_length :
    ok (exec .decode { dec1 with cfg := { fbLen := 24 } }) (fun t => t.status.err == 2 && t.dec.good == 0) = true := by
  decide +kernel
-- MD-1, MD-4.
theorem test_modedet_low :
    ok (exec .modedet { capture 1000000 (gapsOf [11000, 50, 60, 11000, 40, 11000, 4000]) with
        cfg := { sampleRate := 1000000, inLen := 8, rangeStart := 0, rangeEnd := 8 } })
      (fun t => modeResultWord t == 0x101) = true := by decide +kernel
theorem test_modedet_tie :
    ok (exec .modedet { capture 1000000 (gapsOf [10500]) with
        cfg := { sampleRate := 1000000, inLen := 2, rangeStart := 0, rangeEnd := 2 } })
      (fun t => modeResultWord t == 0x102) = true := by decide +kernel
-- RS-5 (a), RS-1.
theorem test_rs_scan :
    ok (exec .rsScan (scanning (capture 1000000 [(0, 0), (3000, 1)]) 1)) (fun t => t.rsu.j == 2 && t.act == .scan) =
      true := by decide +kernel
theorem test_rs_start :
    ok (exec .rsStart (scanning rs1 1)) (fun t => t.rsu.t0 == 5000 && t.rsu.k == 1 && t.act == .inFrame) = true := by
  decide +kernel
theorem test_rs_edge :
    ok (exec .rsEdge (inside rs1 1 0 5000)) (fun t =>
      t.rsLen == 9 && t.rsu.count == 9 && t.rsu.k == 2 && t.rsMem.read 8 == some { bit := false, ts := 5080 }) =
      true := by decide +kernel
-- RS-2: the residual at the level of record 4; RS-1: zeros. Both with 298 bits already emitted.
theorem test_rs_fill :
    ok (exec .rsFill (inside rs2 4 298 5000)) (fun t =>
      t.rsLen == 2 && t.rsu.count == 300 && t.rsMem.read 1 == some { bit := true, ts := 7990 }) = true := by
  decide +kernel
theorem test_rs_clip :
    ok (exec .rsClip (inside rs1 4 298 5000)) (fun t =>
      t.rsLen == 2 && t.rsu.clipped && t.rsMem.read 1 == some { bit := false, ts := 7990 }) = true := by decide +kernel
theorem test_rs_trail :
    ok (exec .rsTrail (inside rs2 4 300 5000)) (fun t =>
      t.rsMem.read 0 == some { bit := false, ts := 8000 } && t.act == .scan && t.rsu.j == 5) = true := by decide +kernel
-- MD-5: 3000 ticks at 1 MHz are not above 3 ms; MD-5b: 3001 are.
theorem test_md_gap :
    ok (exec .mdGap (tallying (capture 1000000 (gapsOf [3000])) 1 2 [])) (fun t => t.mdu.hist == []) = true ∧
    ok (exec .mdGap (tallying (capture 1000000 (gapsOf [3001])) 1 2 [])) (fun t => t.mdu.hist == [(3001, 1)]) = true := by
  decide +kernel
-- MD-3, with both tie rules.
theorem test_md_classify :
    ok (exec .mdClassify (tallying (capture 1000000 []) 1 0 [(4000, 2), (11000, 2)]))
      (fun t => t.mdu.m == 2 && t.mdu.g) = true ∧
    ok (exec .mdClassify { tallying (capture 1000000 []) 1 0 [(4000, 2), (11000, 2)] with par := { modeTie := .largest } })
      (fun t => t.mdu.m == 1 && t.mdu.g) = true := by decide +kernel
-- FR-1, FR-2, FR-4.
theorem test_fr_label :
    ok (exec .frLabel (fsuBegin { fr1 with cfg := { chIndex := 5 } }))
      (fun t => t.ev == [{ kind := .label, line := 5 }] && t.act == .fsuInit) = true := by decide +kernel
theorem test_fr_shift :
    ok (exec .frShift (walking (stream 1000000 [(0, 1), (10, 1)]) 0 0 0)) (fun t =>
      t.fsu.raw == 0x800 && t.fsu.bitcnt == 1 && t.progress == 50) = true := by decide +kernel
theorem test_fr_word :
    ok (exec .frWord { walking fr1 11 11 0 with fsu := { i := 11, bitcnt := 11, raw := 0x782 } }) (fun t =>
      fbAt t.fb 0 == 0xF0 && t.fsu.bytecnt == 1 && t.fsu.raw == 0 && (t.ev.map EvRec.value) == [0x783]) = true := by
  decide +kernel
-- RS-2: an error frame; LOSS 100 differs from PREV_LOSS 0, so the tag is FRAME_LOST.
theorem test_fr_frame :
    ok (exec .frFrame (walking (stream 200000 [(0, 0), (2, 0)]) 0 11 24)) (fun t =>
      t.dec.errors == 1 && t.frameCount == 1 && t.prevLoss == 100 && t.fsu.bytecnt == 0 &&
      (t.ev.map EvRec.kind) == [.byte, .frameLost]) = true := by decide +kernel
theorem test_fr_desync :
    ok (exec .frDesync { walking (stream 1000000 [(10, 1), (21, 1)]) 0 1 3 with fb := Vector.replicate 25 9 }) (fun t =>
      t.fsu.bitcnt == 0 && t.fsu.bytecnt == 0 && fbAt t.fb 0 == 0 && t.ev == []) = true := by decide +kernel
theorem test_fr_tail :
    ok (exec .frTail (walking fr1 12 0 1)) (fun t => t.prog == [100] && t.fsu.i == 13 && t.fsu.bytecnt == 1) = true := by
  decide +kernel
-- DEC-3: the third frame, one channel operation at a time; the first frame whole.
theorem test_dec_analog_channels :
    ((analogOps.zip [128, 8, 131, 80, 1542, 33, 1060, 1666, 48, 1558, 961, 1028, 1160, 400, 522, 837]).zipIdx).all
      (fun e => ok (exec e.1.1 (framed 0xF00102030405060708090A0B0C0D0E0F101112131415160000))
        fun t => chAt t.dec.ch (e.2 + 1) == BitVec.ofNat 11 e.1.2) = true := by decide +kernel
theorem test_dec_ok :
    ok (exec .decOk dec3) (fun t =>
      t.dec.ch == #v[101, 202, 303, 404, 505, 606, 707, 808, 909, 1010, 1111, 1212, 1313, 1414, 1515, 1616, 2047, 0] &&
      !t.dec.failsafe && t.dec.good == 1 && t.dec.lost == 1 && t.dec.errors == 0) = true := by decide +kernel
-- DEC-6, and the refusal of the other operation.
theorem test_dec_err :
    ok (exec .decErr dec6) (fun t => t.dec.errors == 1 && t.dec.good == 0) = true ∧
    refuses (exec .decErr dec1) (.notSelected "DEC.ERR") = true := by decide +kernel
theorem test_dec_good : ok (exec .decGood dec1) (fun t => t.dec.good == 1 && t.dec.lost == 0) = true := by decide +kernel
-- DEC-4: FB[23] = 0x80, 0x40, 0x20, 0x10.
theorem test_dec_ch17 :
    ok (exec .decCh17 (framed 0xF0000000000000000000000000000000000000000000008000))
      (fun t => chAt t.dec.ch 17 == 2047 && chAt t.dec.ch 18 == 0) = true := by decide +kernel
theorem test_dec_ch18 :
    ok (exec .decCh18 (framed 0xF0000000000000000000000000000000000000000000004000))
      (fun t => chAt t.dec.ch 18 == 2047 && chAt t.dec.ch 17 == 0) = true := by decide +kernel
theorem test_dec_lost :
    ok (exec .decLost (framed 0xF0000000000000000000000000000000000000000000002000)) (fun t => t.dec.lost == 1) = true ∧
    refuses (exec .decLost dec1) (.notSelected "DEC.LOST") = true := by decide +kernel
theorem test_dec_fs :
    ok (exec .decFs (framed 0xF0000000000000000000000000000000000000000000001000)) (fun t => t.dec.failsafe) = true ∧
    ok (exec .decFs { dec1 with dec := { failsafe := true } }) (fun t => !t.dec.failsafe) = true := by decide +kernel
-- S4: (2, 0, 1) gives 33; (5, 2, 3) gives 50.
theorem test_losspct :
    ok (exec .losspct { State.reset with dec := { good := 2, errors := 1 } }) (fun t => t.reply == some (.csr 33)) = true ∧
    ok (exec .losspct { State.reset with dec := { good := 5, lost := 2, errors := 3 } })
      (fun t => t.reply == some (.csr 50)) = true := by decide +kernel
-- NORM-1.
theorem test_norm :
    ok (exec (.norm 3) State.reset) (fun t => t.reply == some (.csr 0xFFFFFF9C)) = true ∧
    [(4, -100), (5, -99), (123, -88), (124, -87), (372, -62), (992, 0), (1364, 38), (2047, 106)].all
      (fun e : Nat × Int => normView e.1 == e.2) = true := by decide +kernel
-- SPB-1, RND-1, S2, S9.
theorem test_operands :
    [(199999, 2), (250000, 3), (349999, 3), (1050000, 11), (4294967295, 42950), (0, 0)].all
      (fun e : Nat × Nat => spb (capture e.1 []) == e.2) = true ∧
    [(4, 0), (5, 1), (14, 1), (15, 2), (2994, 299), (2995, 300)].all (fun e : Nat × Nat => rnd e.1 10 == e.2) = true ∧
    rev (1000#11) = 190 ∧ rev (0x783#12) = 0xC1E ∧ dataByte 0x783 = 0xF0 ∧ dataByte 0x0BB = 0x17 ∧
    dataByte 0x603 = 0xC0 := by decide +kernel

-- ---------------------------------------------------------------- states that meet the statements' hypotheses

/-- `s` with the host's pending accesses l. -/
def asked (s : State) (l : List HostAct) : State := { s with host := l }

/-- A capture with one detected frame that ends at a gap. -/
def cap3 : State := capture 1000000 [(0, 0), (5000, 1), (9000, 0)]

/-- The capacities the statements on RESAMPLE and RUN ask for `cap3`, met exactly: its two frames make 602 records. -/
def snug : Config.Params := { inCap := some 3, rsCap := some 602, evCap := some 53 }

theorem wit_EncodedOperationsDecodeBack :
    ((Instr.norm 18).wellFormed = true ∧ encode (.norm 18) = some (.readCsr 0x51)) ∧
    ((Instr.reservedCommand 7).wellFormed = true ∧ encode (.reservedCommand 7) = some (.writeCsr 0 7)) := by decide
theorem wit_DecodedAccessesEncodeBack :
    decodeHost (.writeCsr 0 6) = some .modedet ∧ decodeHost (.readCsr 0x40) = some (.norm 1) := by decide
theorem wit_OnlyStartAndEndBytesValidate : frameValid dec1.fb = true ∧ frameValid dec6.fb = false := by decide +kernel
theorem wit_PackedFormatsRoundTrip : fbAt dec6.fb 24 = 0x01 ∧ (24 : Nat) < 25 := by decide +kernel
theorem wit_ReversalIsSelfInverse : (10 : Nat) < 11 ∧ rev (1#11) = 1024 := by decide
theorem wit_StepRunsTheDecodedAccess :
    (asked State.reset [.writeCsr 0 0]).act = .idle ∧ decodeHost (.writeCsr 0 0) = some .nop ∧
    ok (step (asked State.reset [.writeCsr 0 0])) (fun t => t.status.done) = true := by decide +kernel
theorem wit_StepRunsTheSelectedOperation :
    (NoReset (tallying cap3 4 3 []) ∧ selectOp (tallying cap3 4 3 []) = some .mdClassify ∧
      (tallying cap3 4 3 []).act ≠ .fdu) ∧
    (NoReset { dec1 with act := .fdu } ∧ selectOp { dec1 with act := .fdu } = some .decOk ∧
      ok (exec .decOk { dec1 with act := .fdu }) (fun _ => true) = true) := by decide +kernel
theorem wit_HardwareResetClearsEverything : chAt State.reset.dec.ch 18 = 0 ∧ fbAt State.reset.fb 24 = 0 := by
  decide +kernel
theorem wit_HardwareResetActsInAnyState :
    (asked (walking fr1 3 3 0) [.hardwareReset, .readCsr 1]).host = .hardwareReset :: [.readCsr 1] := by decide
theorem wit_ReservedWordRaisesIllegalCommand :
    7 ≤ ((7#32).extractLsb' 0 4).toNat ∧ 7 ≤ ((15#32).extractLsb' 0 4).toNat ∧ (0x10#32).extractLsb' 4 28 ≠ 0 := by decide
theorem wit_LowSampleRateRaisesPreconditionFailure :
    (capture 199999 []).cfg.sampleRate.toNat < 200000 ∧ Instr.frame ∈ [Instr.run, .resample, .frame, .modedet] := by
  decide +kernel
theorem wit_BadArgumentsRaiseInvalidArgument :
    (capture 200000 []).cfg.fbLen ≠ 25 ∧
    ({ sampleRate := 200000, mode := 3 } : Cfg).mode = 3 ∧ 200000 ≤ (capture 200000 []).cfg.sampleRate.toNat ∧
    (let c : Cfg := { sampleRate := 200000, rangeStart := 1 }; c.rangeEnd.toNat < c.rangeStart.toNat) ∧
    (let c : Cfg := { sampleRate := 200000, rangeEnd := 1 }; c.inLen.toNat < c.rangeEnd.toNat) := by decide +kernel
theorem wit_ExceptionsArePrecise :
    ok (exec (decodeCmd 2) (capture 199999 [])) (fun t => t.status.err != 0) = true ∧
    ok (exec (decodeCmd 5) State.reset) (fun t => t.status.err != 0) = true ∧
    ok (exec (decodeCmd 7) State.reset) (fun t => t.status.err != 0) = true := by decide +kernel
theorem wit_AnalogChannelsFollowTheWindows :
    ValidFrame dec3.fb ∧ analogOps[0]? = some .decCh1 ∧ analogOps[15]? = some .decCh16 := by decide +kernel
theorem wit_FlagByteOperations :
    ValidFrame dec3.fb ∧ (fbAt dec3.fb 23).getLsbD 5 = true ∧ countsLeft (0xFFFFFFFE : Word) 1 := by decide +kernel
theorem wit_FramesAreDecodedOrCounted :
    (ValidFrame dec3.fb ∧ countsLeft dec3.dec.good 1 ∧ countsLeft dec3.dec.lost 1) ∧
    (¬ValidFrame dec6.fb ∧ countsLeft dec6.dec.errors 1) := by decide +kernel
theorem wit_DecodeCommandDecodesTheBuffer :
    (dec3.cfg.fbLen = 25 ∧ ValidFrame dec3.fb ∧ countsLeft dec3.dec.good 1 ∧ countsLeft dec3.dec.lost 1) ∧
    (dec6.cfg.fbLen = 25 ∧ ¬ValidFrame dec6.fb ∧ countsLeft dec6.dec.errors 1) := by decide +kernel
-- DEC-9: the same frame from two sessions; for ChannelMapIsBijective also channels 1 and 16 at their bounds.
theorem wit_DecodingIsPure :
    dec3.fb = ({ dec3 with dec := { failsafe := true } } : State).fb ∧ ok (exec .decOk dec3) (fun _ => true) = true ∧
    ok (exec .decOk { dec3 with dec := { failsafe := true } }) (fun _ => true) = true := by decide +kernel
theorem wit_ChannelMapIsBijective :
    ok (exec .decOk dec3) (fun t => ok (exec .decOk { dec3 with dec := { failsafe := true } }) fun t' =>
      (List.range 16).all fun n => chAt t.dec.ch (n + 1) == chAt t'.dec.ch (n + 1)) = true := by decide +kernel
theorem wit_LossPercentageView :
    ({ good := 1 } : Decoded).good.toNat + 0 + 0 ≠ 0 ∧
    State.reset.dec.good.toNat + State.reset.dec.lost.toNat + State.reset.dec.errors.toNat = 0 := by decide +kernel
theorem wit_LossPercentageIsMonotone : lossPercent 1 0 0 = 0 ∧ lossPercent 1 0 1 = 50 ∧ lossPercent 1 1 1 = 66 := by
  decide
theorem wit_NormalisedView :
    ok (exec (.norm 1) dec1) (fun _ => true) = true ∧ ok (exec (.norm 18) dec1) (fun _ => true) = true := by
  decide +kernel
theorem wit_CsrReadsReturnTheRegisters :
    ∀ n ∈ [0x00, 0x01, 0x02, 0x03, 0x04, 0x05, 0x06, 0x07, 0x08, 0x09, 0x0A, 0x0B, 0x0C, 0x0D, 0x0E, 0x0F, 0x11, 0x12,
        0x13, 0x20, 0x31, 0x60, 0x78],
      ok (step (asked dec1 [.readCsr n])) (fun t => t.reply.isSome && t.draws == 0) = true := by decide +kernel
theorem wit_CsrWritesStoreOnlyWritableFields :
    (∀ n ∈ [0x02, 0x03, 0x04, 0x05, 0x06, 0x07, 0x09, 0x60, 0x78],
      ok (step (asked State.reset [.writeCsr n 0xFFFFFFFF])) (fun t => decide (t ≠ State.reset)) = true) ∧
    (∀ n ∈ [0x01, 0x08, 0x0A, 0x5F, 0x79],
      ok (step (asked State.reset [.writeCsr n 0xFFFFFFFF])) (fun t => decide (t = State.reset)) = true) := by
  decide +kernel
theorem wit_HostRecordWritesChangeOneRecord :
    ok (step (asked cap3 [.writeIn 3 { level := 1, ts := 9 }])) (fun t =>
      t.inMem.read 3 == some { level := 1, ts := 9 } && t.inMem.read 2 == cap3.inMem.read 2) = true ∧
    ok (step (asked fr1 [.writeRs 0 { bit := true, ts := 9 }])) (fun t =>
      t.rsMem.read 0 == some { bit := true, ts := 9 } && t.rsMem.read 1 == fr1.rsMem.read 1) = true := by decide +kernel
theorem wit_HostReadsHaveNoSideEffect :
    ok (step (asked cap3 [.readIn 2])) (fun t => t.reply == some (.inRec { level := 0, ts := 9000 })) = true ∧
    ok (step (asked fr1 [.readRs 12])) (fun t => t.reply == some (.rsRec { bit := false, ts := 124 })) = true ∧
    ok (step (asked { fr1 with ev := [{ kind := .label, line := 0 }] } [.readEv 0])) (fun t => t.draws == 0) = true ∧
    ok (step (asked cap3 [.readIn 3])) (fun t => t.draws == 1) = true ∧
    ok (step (asked (unwritten cap3) [.readIn 2])) (fun t => t.draws == 0) = true := by decide +kernel
theorem wit_RoundingGoesToNearestTiesUp : 1 ≤ 10 ∧ rnd 15 10 = 2 ∧ rnd 14 10 = 1 := by decide
theorem wit_ScanningFindsFrameStarts :
    (let s := scanning (capture 1000000 [(0, 0), (3000, 1)]) 1;
      s.act = .scan ∧ 1 ≤ s.rsu.j.toNat ∧ s.rsu.j.toNat < s.cfg.inLen.toNat ∧ scanGap s = some 3000 ∧
        300 * spb s = 3000) ∧
    scanGap (scanning (capture 1000000 [(0, 0), (3001, 1)]) 1) = some 3001 := by decide +kernel
theorem wit_EdgeExpandsItsLevel :
    (let s := inside rs1 1 0 5000;
      s.act = .inFrame ∧ s.rsu.k.toNat + 1 < s.cfg.inLen.toNat ∧ edgeGap s = some 90 ∧ fits s.par.rsCap 9 = true) ∧
    (let s := { inside rs1 3 299 5000 with par := { rsCap := some 1 } };
      s.rsu.count < 300 ∧ edgeGap s = some 30 ∧ fits s.par.rsCap 1 = true) := by decide +kernel
theorem wit_ResidualsPadToThreeHundred :
    (let s := inside rs2 4 299 5000;
      s.act = .inFrame ∧ s.rsu.count < 300 ∧ s.rsu.k.toNat + 1 < s.cfg.inLen.toNat ∧ edgeGap s = some 3870 ∧
        fits s.par.rsCap (s.rsLen.toNat + (300 - s.rsu.count)) = true) ∧
    (let s := inside rs1 4 0 5000;
      s.cfg.inLen.toNat ≤ s.rsu.k.toNat + 1 ∧ fits s.par.rsCap 300 = true) := by decide +kernel
theorem wit_TrailMarksTheFrameEnd :
    let s := inside rs1 4 300 5000
    s.act = .inFrame ∧ s.rsu.count = 300 ∧ fits s.par.rsCap (s.rsLen.toNat + 1) = true := by decide +kernel
theorem wit_ResamplerSelectsOneOperation :
    selectOp (scanning rs1 1) = some .rsStart ∧ selectOp (scanning rs1 2) = some .rsScan ∧
    selectOp (inside rs1 4 300 5000) = some .rsTrail ∧ selectOp (inside rs1 4 299 5000) = some .rsClip ∧
    selectOp (inside rs1 1 0 5000) = some .rsEdge ∧ selectOp (inside rs2 4 0 5000) = some .rsFill := by decide +kernel
theorem wit_ResampleCompletes :
    (let s := { cap3 with par := snug };
      200000 ≤ s.cfg.sampleRate.toNat ∧ CaptureReady s ∧ fits s.par.rsCap (301 * framesDetected s) = true) ∧
    CaptureReady (capture 200000 []) ∧ CaptureReady (unwritten (capture 200000 [(0, 0)])) ∧
    framesDetected cap3 = 2 ∧ framesDetected (capture 1000000 [(0, 0), (3000, 1), (6000, 0)]) = 0 := by
  refine ⟨⟨?_, ?_, ?_⟩, ?_, ?_, ?_, ?_⟩ <;> decide +kernel
theorem wit_LongGapsAreTallied :
    (let s := tallying (capture 1000000 (gapsOf [3000])) 1 2 [];
      s.act = .mdu ∧ 1 ≤ s.mdu.q ∧ s.mdu.q < s.mdu.stop ∧ pairGap s = some 3000) ∧
    pairGap (tallying (capture 1000000 (gapsOf [3001])) 1 2 []) = some 3001 := by decide +kernel
theorem wit_ClassificationFollowsTheMostFrequentGap :
    (let s := tallying cap3 3 3 []; s.act = .mdu ∧ s.mdu.stop ≤ s.mdu.q ∧ s.mdu.hist.wf = true) ∧
    (let s := tallying cap3 3 3 [(4000, 2), (11000, 2)]; s.mdu.hist ≠ [] ∧ s.mdu.hist.wf = true ∧
      0 < s.cfg.sampleRate.toNat) := by decide +kernel
theorem wit_ModeDetectionClassifiesTheRange :
    (let s := { cap3 with cfg := { cap3.cfg with rangeEnd := 3 } };
      200000 ≤ s.cfg.sampleRate.toNat ∧ s.cfg.rangeStart.toNat ≤ s.cfg.rangeEnd.toNat ∧
      s.cfg.rangeEnd.toNat ≤ s.cfg.inLen.toNat ∧ InputReady s 0 3 ∧ retainedGaps s 0 3 = [5000, 4000]) ∧
    (InputReady (unwritten cap3) 3 3 ∧ retainedGaps cap3 3 3 = []) := by
  refine ⟨⟨?_, ?_, ?_, ?_, ?_⟩, ?_, ?_⟩ <;> decide +kernel
theorem wit_LabelEventOpensAPass :
    (fsuBegin fr1).act = .fsuLabel ∧ fits (some 1) ((fsuBegin fr1).ev.length + 1) = true := by decide +kernel
theorem wit_ShiftCollectsOneBit :
    InSyncAt (walking fr1 0 0 0) { bit := false, ts := 100 } { bit := true, ts := 102 } ∧
    InSyncAt (walking fr1 10 10 24) { bit := true, ts := 120 } { bit := true, ts := 122 } := by decide +kernel
theorem wit_WordStoresItsByte :
    (let s := walking fr1 11 11 0;
      InSyncAt s { bit := true, ts := 122 } { bit := false, ts := 124 } ∧ s.fsu.bitcnt.toNat = 11 ∧
      s.fsu.bytecnt.toNat < 24 ∧ s.rsAt s.fsu.byteStart.toNat = { bit := false, ts := 100 } ∧
      fits (some 1) (s.ev.length + 1) = true) ∧
    (walking fr1 11 11 23).fsu.bytecnt.toNat < 24 := by decide +kernel
theorem wit_FrameIsHandedOver :
    (let s := { walking fr1 11 11 24 with fb := dec3.fb };
      InSyncAt s { bit := true, ts := 122 } { bit := false, ts := 124 } ∧ s.fsu.bitcnt.toNat = 11 ∧
      s.fsu.bytecnt.toNat = 24 ∧ s.rsAt s.fsu.byteStart.toNat = { bit := false, ts := 100 } ∧
      s.rsAt s.fsu.frameStart.toNat = { bit := false, ts := 100 } ∧
      fits (some 2) (s.ev.length + 2) = true ∧ countsLeft s.frameCount 1 ∧ countsLeft s.dec.good 1 ∧
      countsLeft s.dec.lost 1 ∧ countsLeft s.dec.errors 1 ∧
      ValidFrame (s.fb.setIfInBounds 24 (BitVec.ofNat 8 ((s.fsu.raw ||| BitVec.ofNat 12 1).toNat / 8)))) ∧
    ¬ValidFrame (fr1.fb.setIfInBounds 24 (BitVec.ofNat 8 ((fr1.fsu.raw ||| BitVec.ofNat 12 1).toNat / 8))) := by
  decide +kernel
theorem wit_DesyncAndTailCollectNothing :
    (let s := walking (stream 1000000 [(10, 1), (21, 1)]) 0 1 3;
      s.act = .fsuWalk ∧ s.fsu.i.toNat + 1 < s.rsLen.toNat ∧
      s.rsAt 0 = { bit := true, ts := 10 } ∧ s.rsAt 1 = { bit := true, ts := 21 } ∧
      spb s < 21 - 10) ∧
    (let s := walking fr1 12 0 1; s.fsu.i.toNat + 1 = s.rsLen.toNat) := by decide +kernel
theorem wit_SynchronizerSelectsOneOperation :
    selectOp (walking fr1 12 0 0) = some .frTail ∧ selectOp (walking fr1 0 10 24) = some .frShift ∧
    selectOp (walking fr1 0 11 23) = some .frWord ∧ selectOp (walking fr1 0 11 24) = some .frFrame ∧
    selectOp (walking (stream 1000000 [(10, 1), (21, 1)]) 0 11 24) = some .frDesync := by decide +kernel
theorem wit_FrameCompletesAndCounts :
    (let s := { fr1 with par := { evCap := some 2 } };
      200000 ≤ s.cfg.sampleRate.toNat ∧ ResampledReady s ∧
      fits s.par.evCap (s.ev.length + 1 + s.rsLen.toNat / 12 + s.rsLen.toNat / 300) = true ∧
      countsLeft s.frameCount (s.rsLen.toNat / 300) ∧ countsLeft s.dec.good (s.rsLen.toNat / 300) ∧
      countsLeft s.dec.lost (s.rsLen.toNat / 300) ∧ countsLeft s.dec.errors (s.rsLen.toNat / 300)) ∧
    ResampledReady (stream 200000 []) ∧ ResampledReady (unwritten (stream 200000 [(0, 0)])) := by decide +kernel
theorem wit_ProgressIsReportedOncePerRecord :
    ok (exec .frame fr1) (fun t => t.status.err == 0) = true ∧
    ok (exec .frame (stream 200000 [])) (fun t => t.status.err == 0) = true := by decide +kernel
theorem wit_RunIsResampleThenFrame :
    let s := { cap3 with par := snug }
    let n := 301 * framesDetected s
    200000 ≤ s.cfg.sampleRate.toNat ∧ s.cfg.mode ≠ 3 ∧ CaptureReady s ∧ fits s.par.rsCap n = true ∧
    fits s.par.evCap (s.ev.length + 1 + n / 12 + n / 300) = true ∧
    countsLeft s.frameCount (n / 300) ∧ countsLeft s.dec.good (n / 300) ∧
    countsLeft s.dec.lost (n / 300) ∧ countsLeft s.dec.errors (n / 300) := by
  decide +kernel
theorem wit_RunStoresTheMode :
    (∀ m ∈ [0, 1, 2], ok (exec .run { capture 1000000 [] with cfg := { sampleRate := 1000000, mode := m } })
      (fun t => t.status.err == 0) = true) := by decide +kernel
theorem wit_ModeChangesNothingElse :
    ok (exec .run (capture 1000000 [])) (fun t => t.status.err == 0) = true ∧ (2 : BitVec 2) ≠ 3 ∧
    (∀ i ∈ [Instr.resample, .frame, .decode, .modedet],
      ok (exec i { capture 1000000 [] with cfg := { sampleRate := 1000000, mode := 3 } }) (fun _ => true) = true) ∧
    refuses (exec .modedet (capture 200000 [(5, 0), (5, 0)])) .inputNotIncreasing = true := by decide +kernel
theorem wit_CommandsAreTheirMicroOperations :
    NoReset (capture 1000000 []) ∧
    (∀ i ∈ [Instr.resample, .frame, .modedet, .run],
      ok (exec i (capture 1000000 [])) (fun t => t.status.err == 0) = true) ∧
    ok (exec .run { capture 1000000 [] with cfg := { sampleRate := 1000000, mode := 1 } })
      (fun t => t.status.err == 0) = true := by decide +kernel
theorem wit_UnselectedOperationsAreRefused :
    (selectOp State.reset ≠ some .rsScan ∧ refuses (exec .rsScan State.reset) (.notSelected "RS.SCAN") = true) ∧
    (¬ValidFrame dec6.fb ∧ refuses (exec .decCh16 dec6) (.notSelected "DEC.CH16") = true) ∧
    ValidFrame dec1.fb ∧ (fbAt dec1.fb 23).getLsbD 5 = false := by decide +kernel
theorem wit_CommandsStopOutsideTheirDomain :
    refuses (exec .resample { cap3 with par := { inCap := some 2 } }) (.capacity .inp) = true ∧
    refuses (exec .modedet (capture 200000 [(5, 0), (5, 0)])) .inputNotIncreasing = true ∧
    refuses (exec .resample (capture 200000 [(2 ^ 63, 0)])) .inputNotIncreasing = true ∧
    refuses (exec .frame { fr1 with par := { rsCap := some 12 } }) (.capacity .rs) = true ∧
    refuses (exec .frame (stream 200000 [(5, 0), (5, 0)])) .rsNotIncreasing = true := by decide +kernel
theorem wit_CountersAndMemoriesNeverWrap :
    refuses (exec .decOk { dec1 with dec := { good := 0xFFFFFFFF } }) .counterOverflow = true ∧
    refuses (exec .decOk { dec3 with dec := { lost := 0xFFFFFFFF } }) .counterOverflow = true ∧
    refuses (exec .decErr { dec6 with dec := { errors := 0xFFFFFFFF } }) .counterOverflow = true ∧
    refuses (exec .frLabel { fsuBegin fr1 with par := { evCap := some 0 } }) (.capacity .ev) = true ∧
    refuses (exec .frWord { walking fr1 11 11 23 with par := { evCap := some 0 } }) (.capacity .ev) = true ∧
    refuses (exec .frFrame { walking fr1 11 11 24 with par := { evCap := some 0 } }) (.capacity .ev) = true ∧
    refuses (exec .frFrame { walking fr1 11 11 24 with par := { evCap := some 1 } }) (.capacity .ev) = true ∧
    refuses (exec .frFrame { walking fr1 11 11 24 with frameCount := 0xFFFFFFFF }) .counterOverflow = true ∧
    refuses (exec .frFrame { walking fr1 11 11 24 with dec := { errors := 0xFFFFFFFF } }) .counterOverflow = true ∧
    refuses (exec .frFrame { walking fr1 11 11 24 with fb := dec3.fb, dec := { good := 0xFFFFFFFF } })
      .counterOverflow = true ∧
    refuses (exec .frFrame { walking fr1 11 11 24 with fb := dec3.fb, dec := { lost := 0xFFFFFFFF } })
      .counterOverflow = true ∧
    refuses (exec .decode { dec3 with dec := { lost := 0xFFFFFFFF } }) .counterOverflow = true ∧
    (¬DecodeOverflows dec3.fb { errors := 0xFFFFFFFF } ∧ DecodeOverflows dec6.fb { errors := 0xFFFFFFFF }) ∧
    refuses (exec .rsTrail { inside rs1 4 300 0 with par := { rsCap := some 0 } }) (.capacity .rs) = true ∧
    refuses (exec .rsEdge { inside rs1 1 0 5000 with par := { rsCap := some 8 } }) (.capacity .rs) = true ∧
    refuses (exec .rsFill { inside rs2 4 298 5000 with par := { rsCap := some 1 } }) (.capacity .rs) = true ∧
    refuses (exec .rsClip { inside rs1 4 299 5000 with par := { rsCap := some 0 } }) (.capacity .rs) = true := by
  decide +kernel
theorem wit_TheCoreNeverWritesTheHostsState : ok (exec .decode dec1) (fun t => decide (t ≠ dec1)) = true := by
  decide +kernel
theorem wit_OnlyTheDecoderAndSresetWriteDecoderState :
    ok (exec .frWord (walking fr1 11 11 0)) (fun _ => true) = true ∧ ok (exec (.norm 1) dec1) (fun _ => true) = true ∧
    ok (exec (.reservedCommand 7) dec1) (fun _ => true) = true ∧ ok (exec .decode dec1) (fun _ => true) = true := by
  decide +kernel
theorem wit_CountersNeverDecrease :
    ok (step (asked dec1 [.writeCsr 0 5])) (fun t => t.dec.good == 1) = true ∧ NoReset (asked dec1 [.writeCsr 0 5]) ∧
    ¬((asked dec1 [.writeCsr 0 5]).act = .idle ∧ (asked dec1 [.writeCsr 0 5]).host.head? = some (.writeCsr 0 1)) := by
  decide +kernel

/-- `s` has the invariant where these decidable parts hold and RAW is 0. -/
theorem stateInv_of {s : State}
    (h : (s.inMem.wf && s.rsMem.wf && s.mdu.hist.wf && decide (s.status.err.toNat ≤ 3) && !s.status.errlog.getLsbD 3 &&
      (!s.status.done || s.status.err == 0) && (s.act == .idle || (!s.status.done && s.status.err == 0)) &&
      s.modeEff != 3 && s.mdu.m != 3 && (chAt s.dec.ch 17 == 0 || chAt s.dec.ch 17 == 2047) &&
      (chAt s.dec.ch 18 == 0 || chAt s.dec.ch 18 == 2047) && decide (s.prevLoss.toNat ≤ 100) &&
      decide (s.progress.toNat ≤ 100) && s.prog.all (fun p => decide (p.toNat ≤ 100)) &&
      decide (s.fsu.bitcnt.toNat ≤ 11) && decide (s.fsu.bytecnt.toNat ≤ 24) && s.fsu.raw == 0 &&
      decide (s.rsu.count ≤ 300)) = true) : StateInv s := by
  simp only [Bool.and_eq_true, Bool.or_eq_true, Bool.not_eq_true', decide_eq_true_eq, beq_iff_eq, bne_iff_ne,
    List.all_eq_true] at h
  obtain ⟨⟨⟨⟨⟨⟨⟨⟨⟨⟨⟨⟨⟨⟨⟨⟨⟨h1, h2⟩, h3⟩, h4⟩, h5⟩, h6⟩, h7⟩, h8⟩, h9⟩, h10⟩, h11⟩, h12⟩, h13⟩, h14⟩, h15⟩, h16⟩, h17⟩, h18⟩ := h
  refine ⟨h1, h2, h3, h4, h5, fun hd => ?_, fun ha => ?_, h8, h9, h10, h11, h12, h13, h14, h15, h16, fun k _ => ?_, h18⟩
  · rcases h6 with h6 | h6
    · rw [hd] at h6; cases h6
    · exact h6
  · rcases h7 with h7 | h7
    · exact absurd h7 ha
    · exact h7
  · rw [h17]; simp

theorem wit_EveryStepKeepsTheInvariant :
    StateInv (asked dec1 [.writeCsr 0 5]) ∧ StateInv (walking fr1 0 0 24) ∧
    ok (step (asked dec1 [.writeCsr 0 5])) (fun _ => true) = true ∧ ok (step (walking fr1 0 0 24)) (fun _ => true) = true :=
  ⟨stateInv_of (by decide +kernel), stateInv_of (by decide +kernel), by decide +kernel, by decide +kernel⟩

end Sys2Proof.Tests
end

-- ==== the scope's notation: reversal and rounding ====
section
/-! Proofs about the notation of spec/00_scope.md: `rev_N` (R12) and `rnd` (R13). -/

namespace Sys2Proof.Machine

/-- R12, the source's `reverse11(reverse11(x)) == x` at every width. -/
@[simp] theorem rev_rev {n : Nat} (x : BitVec n) : rev (rev x) = x := BitVec.reverse_reverse_eq

/-- R12, `bit(rev_N(x), k) = bit(x, N - 1 - k)`; above the width there is no bit. -/
theorem getLsbD_rev {n : Nat} (x : BitVec n) (k : Nat) :
    (rev x).getLsbD k = (decide (k < n) && x.getLsbD (n - 1 - k)) := by
  rw [rev, BitVec.getLsbD_reverse, BitVec.getMsbD_eq_getLsbD]

/-- Settles O6: the involution and the bit positions are the two laws of `rev`. -/
theorem reversalIsSelfInverse : Obligations.ReversalIsSelfInverse := by
  intro n x
  exact ⟨rev_rev x, fun k hk => by rw [getLsbD_rev, decide_eq_true hk, Bool.true_and]⟩

/-- R13: the interval of `2 dt` that rounds to `n`, closed below (a tie goes up) and open above. The lower bound
`(2 n - 1) p` has its `p` on the other side, so that no subtraction of naturals cuts it off at `n = 0`. -/
theorem rnd_eq_iff {dt p n : Nat} (hp : 1 ≤ p) :
    rnd dt p = n ↔ 2 * n * p ≤ 2 * dt + p ∧ 2 * dt < (2 * n + 1) * p := by
  have hlow : n * (2 * p) = 2 * n * p := by ring
  have hhigh : (2 * n + 1) * p = 2 * n * p + p := by ring
  rw [rnd, Nat.div_eq_iff (by omega : 0 < 2 * p), hlow, hhigh]
  omega

/-- Settles O30: the division in `rnd` is characterised by its inequality pair. -/
theorem roundingGoesToNearestTiesUp : Obligations.RoundingGoesToNearestTiesUp :=
  fun _ _ _ hp => rnd_eq_iff hp

end Sys2Proof.Machine
end

-- ==== the host's port: the CSR file, the views and plain accesses ====
section
/-! Proofs about the host's reads and writes of the CSR file (spec/10_state.md R31, R32, R36): what a plain access of an
idle core does, where each register stands, and the numbers that the registers' fields make. -/

namespace Sys2Proof.Machine

/-- Between commands, an access that is no operation of R103 is served as a plain read or write. -/
theorem step_plainAccess {s : State} {a : HostAct} {rest : List HostAct} (ha : s.act = .idle)
    (hh : s.host = a :: rest) (hr : a ≠ .hardwareReset) (hd : decodeHost a = none) :
    step s = .next (plainAccess { s with host := rest } a) := by
  simp only [step_idle ha hh hr, serve, hd]

-- ---------------------------------------------------------------- where the registers stand

/-- Past the single registers, the CSR file is the two blocks CH and FB (R31). -/
theorem csrValue_of_ge {n : Nat} (hn : 0x14 ≤ n) (s : State) :
    csrValue s n =
      if 0x20 ≤ n ∧ n < 0x20 + 18 then some ((chAt s.dec.ch (n - 0x20 + 1)).setWidth 32)
      else if 0x60 ≤ n ∧ n < 0x60 + 25 then some ((fbAt s.fb (n - 0x60)).setWidth 32)
      else none := by
  unfold csrValue
  split
  case h_20 => rfl
  all_goals omega

theorem csrValue_ch {k : Nat} (h1 : 1 ≤ k) (h2 : k ≤ 18) (s : State) :
    csrValue s (0x20 + (k - 1)) = some ((chAt s.dec.ch k).setWidth 32) := by
  have hk : 0x20 + (k - 1) - 0x20 + 1 = k := by omega
  rw [csrValue_of_ge (by omega), if_pos (by omega), hk]

theorem csrValue_fb {k : Nat} (hk : k < 25) (s : State) :
    csrValue s (0x60 + k) = some ((fbAt s.fb k).setWidth 32) := by
  rw [csrValue_of_ge (by omega), if_neg (by omega), if_pos (by omega), Nat.add_sub_cancel_left]

/-- The views hold no register of their own: a number with a stored value is read as a plain register. -/
theorem decodeHost_readCsr_of_csrValue {s : State} {n : Nat} {w : Word} (h : csrValue s n = some w) :
    decodeHost (.readCsr n) = none := by
  have hloss : n ≠ csrLossPct := by
    rintro rfl
    cases h
  have hnorm : ¬(csrNorm ≤ n ∧ n < csrNorm + 18) := by
    simp only [csrNorm]
    intro hn
    rw [csrValue_of_ge (by omega), if_neg (by omega), if_neg (by omega)] at h
    cases h
  simp only [decodeHost, if_neg hloss, if_neg hnorm]

/-- R31, R67: a host read of a register returns its value and changes nothing but the host's port. -/
theorem step_readCsr {s : State} {n : Nat} {w : Word} {rest : List HostAct} (ha : s.act = .idle)
    (hh : s.host = .readCsr n :: rest) (hv : csrValue s n = some w) :
    step s = .next { s with host := rest, reply := some (.csr w) } := by
  have hv' : csrValue { s with host := rest } n = some w := hv
  rw [step_plainAccess ha hh (by simp) (decodeHost_readCsr_of_csrValue hv)]
  simp only [plainAccess, hv']
  rfl

-- ---------------------------------------------------------------- the numbers the fields make

/-- A concatenation of fields as a number: the high field weighs the width of the low one. -/
theorem toNat_append_eq_add {m n : Nat} (x : BitVec m) (y : BitVec n) :
    (x ++ y).toNat = x.toNat * 2 ^ n + y.toNat := by
  rw [BitVec.toNat_append, ← Nat.shiftLeft_add_eq_or_of_lt y.isLt, Nat.shiftLeft_eq]

/-- LOSS_VALID (R26): some frame was counted. -/
theorem lossValid_iff {s : State} :
    lossValid s = true ↔ s.dec.good.toNat + s.dec.lost.toNat + s.dec.errors.toNat ≠ 0 := by
  simp only [lossValid, frameTotal, bne_iff_ne]

theorem toNat_lossValid (s : State) :
    (lossValid s).toNat = if s.dec.good.toNat + s.dec.lost.toNat + s.dec.errors.toNat = 0 then 0 else 1 := by
  by_cases h : s.dec.good.toNat + s.dec.lost.toNat + s.dec.errors.toNat = 0
  · rw [if_pos h, Bool.eq_false_iff.2 fun hv => lossValid_iff.1 hv h, Bool.toNat_false]
  · rw [if_neg h, lossValid_iff.2 h, Bool.toNat_true]

theorem toNat_statusWord (s : State) :
    (statusWord s).toNat = s.status.done.toNat
      + 2 * (if s.dec.good.toNat + s.dec.lost.toNat + s.dec.errors.toNat = 0 then 0 else 1)
      + 16 * s.status.err.toNat + 256 * s.status.errlog.toNat := by
  rw [← toNat_lossValid]
  simp only [statusWord, toNat_append_eq_add, BitVec.toNat_ofBool, BitVec.ofNat_eq_ofNat, BitVec.toNat_ofNat]
  omega

theorem toNat_configWord (s : State) :
    (configWord s).toNat = s.cfg.chIndex.toNat + 16 * s.cfg.mode.toNat := by
  simp only [configWord, toNat_append_eq_add, BitVec.ofNat_eq_ofNat, BitVec.toNat_ofNat]
  omega

theorem toNat_modeResultWord (s : State) :
    (modeResultWord s).toNat = s.modeEff.toNat + 256 * s.modeFromGaps.toNat := by
  simp only [modeResultWord, toNat_append_eq_add, BitVec.toNat_ofBool, BitVec.ofNat_eq_ofNat, BitVec.toNat_ofNat]
  omega

/-- SPB is far below the width of its register (R6, R152). -/
theorem toNat_spb (s : State) : (BitVec.ofNat 32 (spb s)).toNat = (s.cfg.sampleRate.toNat + 50000) / 100000 := by
  have hrate := s.cfg.sampleRate.isLt
  rw [spb, BitVec.toNat_ofNat, Nat.mod_eq_of_lt (by omega)]

/-- Settles O26: every register has its place in `csrValue`, a read of a place returns its value, and the value is the
number its fields make. -/
theorem csrReadsReturnTheRegisters : Obligations.CsrReadsReturnTheRegisters := by
  intro s n rest ha hh returns
  have reads : ∀ {k : Nat} {w : Word} {v : Nat}, csrValue s k = some w → w.toNat = v → n = k → returns v := by
    rintro k w v hv hw rfl
    exact ⟨w, hw, step_readCsr ha hh hv⟩
  have widen : ∀ {m : Nat} (x : BitVec m), m ≤ 32 → (x.setWidth 32).toNat = x.toNat :=
    fun x hm => BitVec.toNat_setWidth_of_le hm
  have hfailsafe : ((BitVec.ofBool s.dec.failsafe).setWidth 32).toNat = s.dec.failsafe.toNat := by
    rw [widen _ (by decide), BitVec.toNat_ofBool]
  have hevLen : s.ev.length < 2 ^ 32 → (BitVec.ofNat 32 s.ev.length).toNat = s.ev.length := by
    intro hlen
    rw [BitVec.toNat_ofNat, Nat.mod_eq_of_lt hlen]
  exact ⟨reads rfl rfl, reads rfl (toNat_statusWord s), reads rfl rfl, reads rfl (toNat_configWord s), reads rfl rfl,
    reads rfl rfl, reads rfl rfl, reads rfl rfl, reads rfl (toNat_spb s), reads rfl rfl,
    fun hn hlen => reads rfl (hevLen hlen) hn, reads rfl (widen s.progress (by decide)), reads rfl rfl, reads rfl rfl,
    reads rfl rfl, reads rfl rfl, reads rfl (widen s.prevLoss (by decide)), reads rfl hfailsafe,
    reads rfl (toNat_modeResultWord s),
    fun k h1 h2 => reads (csrValue_ch h1 h2 s) (widen (chAt s.dec.ch k) (by decide)),
    fun k hk => reads (csrValue_fb hk s) (widen (fbAt s.fb k) (by decide))⟩

-- ---------------------------------------------------------------- writes

/-- Between commands, a host write of any register but CMD is a plain write. -/
theorem step_writeCsr {s : State} {n : Nat} {v : Word} {rest : List HostAct} (ha : s.act = .idle)
    (hh : s.host = .writeCsr n v :: rest) (hn : n ≠ csrCmd) :
    step s = .next (csrWrite { s with host := rest } n v) := by
  rw [step_plainAccess ha hh (by simp) (by simp only [decodeHost, if_neg hn])]
  rfl

/-- A write to a number that is no writable register, FB block included, is ignored (R31, U9). -/
theorem csrWrite_of_not_writable {n : Nat} (hn : n ∉ [0x00, 0x02, 0x03, 0x04, 0x05, 0x06, 0x07, 0x09])
    (hfb : ¬(0x60 ≤ n ∧ n < 0x60 + 25)) (s : State) (v : Word) : csrWrite s n v = s := by
  unfold csrWrite
  split
  case h_8 => exact if_neg hfb
  all_goals exact absurd (by decide) hn

theorem csrWrite_fb {k : Nat} (hk : k < 25) (s : State) (v : Word) :
    csrWrite s (0x60 + k) v = s.setFb k (v.setWidth 8) := by
  unfold csrWrite
  split
  case h_8 => rw [if_pos (by omega), Nat.add_sub_cancel_left]
  all_goals omega

/-- CONFIG stores CH_INDEX from bits 2:0 and MODE from bits 5:4, and no other bit (R31). -/
theorem csrWrite_config (s : State) (v : Word) :
    csrWrite s 0x03 v = { s with cfg := { s.cfg with
      chIndex := BitVec.ofNat 3 v.toNat, mode := BitVec.ofNat 2 (v.toNat / 16) } } := by
  have hch : v.extractLsb' 0 3 = BitVec.ofNat 3 v.toNat := rfl
  have hmode : v.extractLsb' 4 2 = BitVec.ofNat 2 (v.toNat / 16) := by
    rw [BitVec.extractLsb', Nat.shiftRight_eq_div_pow]
  rw [← hch, ← hmode]
  rfl

/-- Settles O27: a write of a register but CMD is `csrWrite`, whose cases are the clauses. -/
theorem csrWritesStoreOnlyWritableFields : Obligations.CsrWritesStoreOnlyWritableFields := by
  intro s n v rest ha hh t
  have writes : ∀ {k : Nat} {u : State}, k ≠ csrCmd → csrWrite t k v = u → n = k → step s = .next u := by
    rintro k u hk rfl rfl
    exact step_writeCsr ha hh hk
  refine ⟨writes (by decide) rfl, writes (by decide) (csrWrite_config t v), writes (by decide) rfl,
    writes (by decide) rfl, writes (by decide) rfl, writes (by decide) rfl, writes (by decide) rfl, ?_, ?_⟩
  · intro k hk
    rw [BitVec.ofNat_toNat]
    exact writes (by simp only [csrCmd]; omega) (csrWrite_fb hk t v)
  · intro hn hfb
    have hcmd : n ≠ csrCmd := by
      rintro rfl
      exact hn (by decide)
    exact writes hcmd (csrWrite_of_not_writable hn hfb t v) rfl

-- ---------------------------------------------------------------- the view LOSS_PCT

/-- R32: the part of the frames that is not good is at most all of them. -/
theorem lossPercent_le (good lost errors : Nat) : lossPercent good lost errors ≤ 100 :=
  Nat.div_le_of_le_mul (by omega)

/-- The percentage fits the seven bits that R32 gives it. -/
theorem toNat_lossPct (s : State) :
    (lossPct s).toNat = lossPercent s.dec.good.toNat s.dec.lost.toNat s.dec.errors.toNat := by
  have hle := lossPercent_le s.dec.good.toNat s.dec.lost.toNat s.dec.errors.toNat
  rw [lossPct, BitVec.toNat_ofNat, Nat.mod_eq_of_lt (by omega)]

theorem exec_losspct_of_valid {s : State} (h : lossValid s = true) :
    exec .losspct s = .next { s with reply := some (.csr ((lossPct s).setWidth 32)) } :=
  if_pos h

theorem exec_losspct_of_not_valid {s : State} (h : ¬lossValid s = true) :
    exec .losspct s = .next { s with
      reply := some (.csr ((Config.freeLossPct s.draws).setWidth 32)), draws := s.draws + 1 } :=
  if_neg h

/-- Settles O23: LOSS_VALID separates the two cases; in both, the reply is a 7-bit value in a wider register. -/
theorem lossPercentageView : Obligations.LossPercentageView := by
  intro s g l e
  have widen : ∀ x : BitVec 7, (x.setWidth 32).toNat = x.toNat := fun _ => BitVec.toNat_setWidth_of_le (by decide)
  constructor
  · intro hvalid
    have hpct := (widen (lossPct s)).trans (toNat_lossPct s)
    exact ⟨_, hpct, hpct.trans_le (lossPercent_le g l e), exec_losspct_of_valid (lossValid_iff.2 hvalid)⟩
  · intro hzero
    have hfree := (widen (Config.freeLossPct s.draws)).trans_le (Nat.le_of_lt_succ (Config.freeLossPct s.draws).isLt)
    exact ⟨_, hfree, exec_losspct_of_not_valid fun hv => lossValid_iff.1 hv hzero⟩

end Sys2Proof.Machine
end

-- ==== the decoder state and its counters: who writes them, and that they only grow ====
section
/-! Proofs about the session state of the FDU and the frame counters (spec/10_state.md R20, R21, R24, R30): which
operations write them, and that no operation but SRESET lowers a counter. -/

namespace Sys2Proof.Machine

-- ---------------------------------------------------------------- three relations between a state and a later one

/-- The decoder state, FRAME_COUNT and PREV_LOSS are as they were. -/
structure DecoderKept (s t : State) : Prop where
  dec : t.dec = s.dec
  frameCount : t.frameCount = s.frameCount
  prevLoss : t.prevLoss = s.prevLoss

/-- The frame counters of the decoder state are at least what they were (R30). -/
structure DecodedLe (d d' : Decoded) : Prop where
  good : d.good.toNat ≤ d'.good.toNat
  lost : d.lost.toNat ≤ d'.lost.toNat
  errors : d.errors.toNat ≤ d'.errors.toNat

/-- All four frame counters are at least what they were (R30). -/
structure CountersLe (s t : State) : Prop where
  dec : DecodedLe s.dec t.dec
  frameCount : s.frameCount.toNat ≤ t.frameCount.toNat

theorem DecodedLe.refl (d : Decoded) : DecodedLe d d := ⟨le_rfl, le_rfl, le_rfl⟩

theorem CountersLe.refl (s : State) : CountersLe s s := ⟨DecodedLe.refl _, le_rfl⟩

theorem DecodedLe.trans {a b c : Decoded} (hab : DecodedLe a b) (hbc : DecodedLe b c) : DecodedLe a c :=
  ⟨hab.good.trans hbc.good, hab.lost.trans hbc.lost, hab.errors.trans hbc.errors⟩

theorem CountersLe.trans {a b c : State} (hab : CountersLe a b) (hbc : CountersLe b c) : CountersLe a c :=
  ⟨hab.dec.trans hbc.dec, hab.frameCount.trans hbc.frameCount⟩

theorem CountersLe.of_eq {s t : State} (hd : t.dec = s.dec) (hf : t.frameCount = s.frameCount) : CountersLe s t :=
  ⟨hd ▸ DecodedLe.refl _, hf ▸ le_rfl⟩

theorem DecoderKept.countersLe {s t : State} (h : DecoderKept s t) : CountersLe s t := .of_eq h.dec h.frameCount

/-- A counter that does not reach 2^32 grows when it counts. -/
theorem toNat_le_add_one {c : Word} (h : c.toNat + 1 < 2 ^ 32) : c.toNat ≤ (c + 1).toNat := by
  rw [toNat_add_one h]
  exact Nat.le_succ _

-- ---------------------------------------------------------------- the Frame Decoder

theorem decodedOf_le {fb : Vector Byte 25} {d : Decoded} (hg : d.good.toNat + 1 < 2 ^ 32)
    (hl : flagBit fb 5 = true → d.lost.toNat + 1 < 2 ^ 32) : DecodedLe d (decodedOf fb d) := by
  refine ⟨toNat_le_add_one hg, ?_, le_rfl⟩
  simp only [decodedOf]
  split
  case isTrue hf => exact toNat_le_add_one (hl hf)
  case isFalse => exact le_rfl

/-- What the FDU may do (R21, R30): write the decoder state, lower no counter of it, and leave FRAME_COUNT and PREV_LOSS
alone. -/
structure Decodes (s t : State) : Prop where
  dec : DecodedLe s.dec t.dec
  frameCount : t.frameCount = s.frameCount
  prevLoss : t.prevLoss = s.prevLoss

theorem Decodes.countersLe {s t : State} (h : Decodes s t) : CountersLe s t := ⟨h.dec, h.frameCount ▸ le_rfl⟩

theorem execDecOk_decodes {s t : State} (h : execDecOk s = .next t) : Decodes s t := by
  obtain ⟨-, hg, hl, rfl⟩ := execDecOk_eq_next.1 h
  exact ⟨decodedOf_le hg hl, rfl, rfl⟩

theorem execDecErr_decodes {s t : State} (h : execDecErr s = .next t) : Decodes s t := by
  obtain ⟨-, he, rfl⟩ := execDecErr_eq_next.1 h
  exact ⟨⟨le_rfl, le_rfl, toNat_le_add_one he⟩, rfl, rfl⟩

theorem fdu_decodes {s t : State} (h : fdu s = .next t) : Decodes s t := by
  simp only [fdu] at h
  split at h
  · exact execDecOk_decodes h
  · exact execDecErr_decodes h

theorem execDecGood_decodes {s t : State} (h : execDecGood s = .next t) : Decodes s t := by
  obtain ⟨hg, ht⟩ := counterUp_eq_next.1 (whenSelected_eq_next.1 h).2
  cases ht
  exact ⟨⟨toNat_le_add_one hg, le_rfl, le_rfl⟩, rfl, rfl⟩

theorem execDecLost_decodes {s t : State} (h : execDecLost s = .next t) : Decodes s t := by
  obtain ⟨hl, ht⟩ := counterUp_eq_next.1 (whenSelected_eq_next.1 h).2
  cases ht
  exact ⟨⟨le_rfl, toNat_le_add_one hl, le_rfl⟩, rfl, rfl⟩

theorem execDecFs_decodes {s t : State} (h : execDecFs s = .next t) : Decodes s t := by
  obtain ⟨-, ht⟩ := whenSelected_eq_next.1 h
  cases ht
  exact ⟨⟨le_rfl, le_rfl, le_rfl⟩, rfl, rfl⟩

theorem writeChannel_decodes {m : String} {n : Nat} {v : Vector Byte 25 → Chan} {s t : State}
    (h : writeChannel m n v s = .next t) : Decodes s t := by
  obtain ⟨-, rfl⟩ := writeChannel_eq_next.1 h
  exact ⟨⟨le_rfl, le_rfl, le_rfl⟩, rfl, rfl⟩

-- ---------------------------------------------------------------- the Frame Synchronizer

theorem execFrLabel_decoderKept {s t : State} (h : execFrLabel s = .next t) : DecoderKept s t := by
  obtain ⟨-, -, rfl⟩ := execFrLabel_eq_next.1 h
  exact ⟨rfl, rfl, rfl⟩

theorem execFrShift_decoderKept {s t : State} (h : execFrShift s = .next t) : DecoderKept s t := by
  obtain ⟨-, rfl⟩ := execFrShift_eq_next.1 h
  exact ⟨rfl, rfl, rfl⟩

theorem execFrWord_decoderKept {s t : State} (h : execFrWord s = .next t) : DecoderKept s t := by
  obtain ⟨-, -, rfl⟩ := execFrWord_eq_next.1 h
  exact ⟨rfl, rfl, rfl⟩

theorem execFrDesync_decoderKept {s t : State} (h : execFrDesync s = .next t) : DecoderKept s t := by
  obtain ⟨-, rfl⟩ := execFrDesync_eq_next.1 h
  exact ⟨rfl, rfl, rfl⟩

theorem execFrTail_decoderKept {s t : State} (h : execFrTail s = .next t) : DecoderKept s t := by
  obtain ⟨-, rfl⟩ := execFrTail_eq_next.1 h
  exact ⟨rfl, rfl, rfl⟩

theorem closeFrame_countersLe {s t : State} (h : closeFrame s = .next t) : CountersLe s t := by
  obtain ⟨-, rfl⟩ := closeFrame_eq_next.1 h
  exact .of_eq rfl rfl

/-- FR.FRAME counts the frame and decodes it; the rest of it leaves the counters alone. -/
theorem execFrFrame_countersLe {s t : State} (h : execFrFrame s = .next t) : CountersLe s t := by
  obtain ⟨-, -, hcount, d, c, hdecode, hclose, rfl⟩ := execFrFrame_eq_next.1 h
  have hcounted : CountersLe s { s with
      fb := s.fb.setIfInBounds s.fsu.bytecnt.toNat (dataByte (nextRaw s))
      ev := s.ev ++ [byteEvent s (nextRaw s)]
      fsu := { s.fsu with raw := 0, bitcnt := 0 }
      frameCount := s.frameCount + 1 } := ⟨DecodedLe.refl _, toNat_le_add_one hcount⟩
  have hended : CountersLe c (stepEnd c) := .of_eq rfl rfl
  exact hcounted.trans ((fdu_decodes hdecode).countersLe.trans ((closeFrame_countersLe hclose).trans hended))

theorem fsuStep_countersLe {s t : State} (h : fsuStep s = .next t) : CountersLe s t := by
  rcases fsuStep_eq_next h with h | h | h | h | h
  · exact (execFrShift_decoderKept h).countersLe
  · exact (execFrWord_decoderKept h).countersLe
  · exact execFrFrame_countersLe h
  · exact (execFrDesync_decoderKept h).countersLe
  · exact (execFrTail_decoderKept h).countersLe

theorem fsuBody_countersLe {s t : State} (h : fsuBody s = .next t) : CountersLe s t := by
  obtain ⟨u, hlabel, hloop⟩ := fsuBody_eq_next.1 h
  have hlabelled : CountersLe (fsuBegin s) u := (execFrLabel_decoderKept hlabel).countersLe
  have hbegun : CountersLe s (fsuInit u) := ⟨hlabelled.dec, hlabelled.frameCount⟩
  exact fsuLoop_keeps (CountersLe s) (fun _ _ hx hy => hx.trans (fsuStep_countersLe hy)) hloop hbegun

-- ---------------------------------------------------------------- the Bit Resampler

theorem emitBits_decoderKept {b : Bool} {n : Nat} {s t : State} (h : emitBits b n s = .next t) : DecoderKept s t := by
  obtain ⟨-, -, -, ht⟩ := emitBits_eq_next h
  exact ⟨by rw [ht], by rw [ht], by rw [ht]⟩

theorem execRsScan_decoderKept {s t : State} (h : execRsScan s = .next t) : DecoderKept s t := by
  obtain ⟨-, rfl⟩ := execRsScan_eq_next.1 h
  exact ⟨rfl, rfl, rfl⟩

theorem execRsStart_decoderKept {s t : State} (h : execRsStart s = .next t) : DecoderKept s t := by
  obtain ⟨-, rfl⟩ := execRsStart_eq_next.1 h
  exact ⟨rfl, rfl, rfl⟩

theorem execRsEdge_decoderKept {s t : State} (h : execRsEdge s = .next t) : DecoderKept s t := by
  obtain ⟨-, u, hemit, rfl⟩ := execRsEdge_eq_next.1 h
  obtain ⟨hd, hf, hp⟩ := emitBits_decoderKept hemit
  exact ⟨hd, hf, hp⟩

theorem execRsFill_decoderKept {s t : State} (h : execRsFill s = .next t) : DecoderKept s t :=
  emitBits_decoderKept (execRsFill_eq_next.1 h).2

theorem execRsClip_decoderKept {s t : State} (h : execRsClip s = .next t) : DecoderKept s t := by
  obtain ⟨hd, hf, hp⟩ := emitBits_decoderKept (execRsClip_eq_next.1 h).2
  exact ⟨hd, hf, hp⟩

theorem execRsTrail_decoderKept {s t : State} (h : execRsTrail s = .next t) : DecoderKept s t := by
  obtain ⟨-, -, rfl⟩ := execRsTrail_eq_next.1 h
  exact ⟨rfl, rfl, rfl⟩

theorem rsuBody_decoderKept {s t : State} (h : rsuBody s = .next t) : DecoderKept s t := by
  have ht := rsuBody_only h
  exact ⟨by rw [ht], by rw [ht], by rw [ht]⟩

-- ---------------------------------------------------------------- the Mode Detector

theorem execMdGap_decoderKept {s t : State} (h : execMdGap s = .next t) : DecoderKept s t := by
  obtain ⟨-, rfl⟩ := execMdGap_eq_next.1 h
  exact ⟨rfl, rfl, rfl⟩

theorem execMdClassify_decoderKept {s t : State} (h : execMdClassify s = .next t) : DecoderKept s t := by
  obtain ⟨-, rfl⟩ := execMdClassify_eq_next.1 h
  exact ⟨rfl, rfl, rfl⟩

theorem mduBody_decoderKept {a e : Nat} {s t : State} (h : mduBody a e s = .next t) : DecoderKept s t := by
  have ht := mduBody_only h
  exact ⟨by rw [ht], by rw [ht], by rw [ht]⟩

theorem runMode_decoderKept {s t : State} (h : runMode s = .next t) : DecoderKept s t := by
  have ht := runMode_only h
  exact ⟨by rw [ht], by rw [ht], by rw [ht]⟩

-- ---------------------------------------------------------------- the host's commands and views

/-- R296: an exception of a command is taken in STATUS alone. -/
theorem takeException_decoderKept (s : State) (e : Exc) : DecoderKept s (s.prologue.takeException e) :=
  ⟨rfl, rfl, rfl⟩

theorem execNop_decoderKept {s t : State} (h : execNop s = .next t) : DecoderKept s t := by
  cases h
  exact ⟨rfl, rfl, rfl⟩

theorem execReservedCommand_decoderKept {w : Word} {s t : State} (h : execReservedCommand w s = .next t) :
    DecoderKept s t := by
  rw [execReservedCommand_eq_next h]
  exact takeException_decoderKept s _

theorem execResample_decoderKept {s t : State} (h : execResample s = .next t) : DecoderKept s t := by
  rcases execResample_eq_next h with ⟨-, rfl⟩ | ⟨b, hrsu, rfl⟩
  · exact takeException_decoderKept s _
  · obtain ⟨hd, hf, hp⟩ := rsuBody_decoderKept hrsu
    exact ⟨hd, hf, hp⟩

theorem execModedet_decoderKept {s t : State} (h : execModedet s = .next t) : DecoderKept s t := by
  rcases execModedet_eq_next h with ⟨-, rfl⟩ | rfl | ⟨b, hmdu, rfl⟩
  · exact takeException_decoderKept s _
  · exact takeException_decoderKept s _
  · obtain ⟨hd, hf, hp⟩ := mduBody_decoderKept hmdu
    exact ⟨hd, hf, hp⟩

theorem execLosspct_decoderKept {s t : State} (h : execLosspct s = .next t) : DecoderKept s t := by
  simp only [execLosspct] at h
  split at h <;> cases h <;> exact ⟨rfl, rfl, rfl⟩

theorem execNorm_decoderKept {n : Nat} {s t : State} (h : execNorm n s = .next t) : DecoderKept s t := by
  simp only [execNorm] at h
  split at h <;> cases h
  exact ⟨rfl, rfl, rfl⟩

/-- DECODE raises, or does what the FDU does and completes. -/
theorem execDecode_decodes {s t : State} (h : execDecode s = .next t) : Decodes s t := by
  rcases execDecode_eq_next h with ⟨-, rfl⟩ | ⟨b, hfdu, rfl⟩
  · exact ⟨DecodedLe.refl _, rfl, rfl⟩
  · obtain ⟨hd, hf, hp⟩ := fdu_decodes hfdu
    exact ⟨hd, hf, hp⟩

theorem execFrame_countersLe {s t : State} (h : execFrame s = .next t) : CountersLe s t := by
  rcases execFrame_eq_next h with ⟨-, rfl⟩ | ⟨b, hfsu, rfl⟩
  · exact (takeException_decoderKept s _).countersLe
  · obtain ⟨hd, hf⟩ := fsuBody_countersLe hfsu
    exact ⟨hd, hf⟩

theorem execRun_countersLe {s t : State} (h : execRun s = .next t) : CountersLe s t := by
  rcases execRun_eq_next h with ⟨-, rfl⟩ | ⟨-, rfl⟩ | ⟨-, a, b, c, hmode, hrsu, hfsu, rfl⟩
  · exact (takeException_decoderKept s _).countersLe
  · exact (takeException_decoderKept s _).countersLe
  · obtain ⟨hd, hf⟩ := (runMode_decoderKept hmode).countersLe.trans
      ((rsuBody_decoderKept hrsu).countersLe.trans (fsuBody_countersLe hfsu))
    exact ⟨hd, hf⟩

-- ---------------------------------------------------------------- every operation

/-- What an operation has to do with the decoder state and the frame counters. -/
inductive DecoderUse where
  /-- It writes none of them. -/
  | none
  /-- It is the FDU, a part of it, or DECODE: it may write the decoder state. -/
  | decodes
  /-- It is FR.FRAME or runs it: it may write the decoder state, FRAME_COUNT and PREV_LOSS. -/
  | frames
  /-- It is SRESET. -/
  | clears

/-- R21, R24, R30, R216: the use that each operation of R103 makes of the decoder state. -/
def decoderUse : Instr → DecoderUse
  | .sreset => .clears
  | .run | .frame | .frFrame => .frames
  | .decode | .decOk | .decErr | .decGood | .decLost | .decFs
  | .decCh1 | .decCh2 | .decCh3 | .decCh4 | .decCh5 | .decCh6 | .decCh7 | .decCh8 | .decCh9
  | .decCh10 | .decCh11 | .decCh12 | .decCh13 | .decCh14 | .decCh15 | .decCh16 | .decCh17 | .decCh18 => .decodes
  | _ => .none

theorem exec_decoderKept {i : Instr} {s t : State} (hi : decoderUse i = .none) (h : exec i s = .next t) :
    DecoderKept s t := by
  cases i with
  | nop => exact execNop_decoderKept h
  | resample => exact execResample_decoderKept h
  | modedet => exact execModedet_decoderKept h
  | reservedCommand w => exact execReservedCommand_decoderKept h
  | rsScan => exact execRsScan_decoderKept h
  | rsStart => exact execRsStart_decoderKept h
  | rsEdge => exact execRsEdge_decoderKept h
  | rsFill => exact execRsFill_decoderKept h
  | rsClip => exact execRsClip_decoderKept h
  | rsTrail => exact execRsTrail_decoderKept h
  | mdGap => exact execMdGap_decoderKept h
  | mdClassify => exact execMdClassify_decoderKept h
  | frLabel => exact execFrLabel_decoderKept h
  | frShift => exact execFrShift_decoderKept h
  | frWord => exact execFrWord_decoderKept h
  | frDesync => exact execFrDesync_decoderKept h
  | frTail => exact execFrTail_decoderKept h
  | losspct => exact execLosspct_decoderKept h
  | norm n => exact execNorm_decoderKept h
  | _ => cases hi

theorem exec_decodes {i : Instr} {s t : State} (hi : decoderUse i = .decodes) (h : exec i s = .next t) :
    Decodes s t := by
  cases i with
  | decode => exact execDecode_decodes h
  | decOk => exact execDecOk_decodes h
  | decErr => exact execDecErr_decodes h
  | decGood => exact execDecGood_decodes h
  | decLost => exact execDecLost_decodes h
  | decFs => exact execDecFs_decodes h
  | decCh1 | decCh2 | decCh3 | decCh4 | decCh5 | decCh6 | decCh7 | decCh8 | decCh9 | decCh10 | decCh11 | decCh12
  | decCh13 | decCh14 | decCh15 | decCh16 | decCh17 | decCh18 =>
    simp only [exec, execDecCh1, execDecCh2, execDecCh3, execDecCh4, execDecCh5, execDecCh6, execDecCh7, execDecCh8,
      execDecCh9, execDecCh10, execDecCh11, execDecCh12, execDecCh13, execDecCh14, execDecCh15, execDecCh16,
      execDecCh17, execDecCh18] at h
    exact writeChannel_decodes h
  | _ => cases hi

/-- R30: of all operations, only SRESET lowers a frame counter. -/
theorem exec_countersLe {i : Instr} {s t : State} (hi : i ≠ .sreset) (h : exec i s = .next t) : CountersLe s t := by
  cases hu : decoderUse i with
  | none => exact (exec_decoderKept hu h).countersLe
  | decodes => exact (exec_decodes hu h).countersLe
  | frames =>
    cases i with
    | run => exact execRun_countersLe h
    | frame => exact execFrame_countersLe h
    | frFrame => exact execFrFrame_countersLe h
    | _ => cases hu
  | clears =>
    cases i with
    | sreset => exact absurd rfl hi
    | _ => cases hu

/-- Settles O56: by the use each operation makes of the decoder state. -/
theorem onlyTheDecoderAndSresetWriteDecoderState : Obligations.OnlyTheDecoderAndSresetWriteDecoderState := by
  intro i s t h
  constructor
  · intro hi
    have hu : decoderUse i = .none := by
      rcases hi with hi | ⟨w, rfl⟩ | ⟨n, rfl⟩
      · clear h
        revert i
        simp [decoderUse]
      · rfl
      · rfl
    exact (exec_decoderKept hu h).dec
  · intro hi
    cases hu : decoderUse i with
    | none =>
      have hk := exec_decoderKept hu h
      exact ⟨hk.frameCount, hk.prevLoss⟩
    | decodes =>
      have hd := exec_decodes hu h
      exact ⟨hd.frameCount, hd.prevLoss⟩
    | frames =>
      cases i with
      | run | frame | frFrame => exact absurd (by simp) hi
      | _ => cases hu
    | clears =>
      cases i with
      | sreset => exact absurd (by simp) hi
      | _ => cases hu

-- ---------------------------------------------------------------- every step

/-- R91: a command word is its OPCODE in bits 3:0 and its ZERO field above. -/
theorem toNat_commandWord (w : Word) : w.toNat = 16 * (cmdZero w).toNat + (cmdOpcode w).toNat := by
  have hw := w.isLt
  simp only [cmdZero, cmdOpcode, BitVec.extractLsb'_toNat, Nat.shiftRight_eq_div_pow]
  omega

/-- R91: the only command word of SRESET is 1. -/
theorem eq_one_of_decodeCmd_sreset {w : Word} (h : decodeCmd w = .sreset) : w = 1 := by
  simp only [decodeCmd] at h
  split at h
  case isTrue => cases h
  case isFalse hzero =>
    split at h <;> cases h
    rename_i hopcode
    exact BitVec.eq_of_toNat_eq (by rw [toNat_commandWord w, hopcode, not_not.1 hzero]; rfl)

theorem eq_writeCsr_of_decodeHost_sreset {a : HostAct} (h : decodeHost a = some .sreset) : a = .writeCsr 0 1 := by
  cases a with
  | writeCsr n w =>
    simp only [decodeHost] at h
    split at h
    case isTrue hn => rw [hn, eq_one_of_decodeCmd_sreset (Option.some.inj h), csrCmd]
    case isFalse => cases h
  | readCsr n =>
    simp only [decodeHost] at h
    repeat' split at h
    all_goals cases h
  | _ => cases h

/-- An access of an idle core: the operation it selects, or a plain read or write. -/
theorem serve_eq_next {run : Instr → State → Out} {a : HostAct} {s t : State} (h : serve run a s = .next t) :
    (∃ i, decodeHost a = some i ∧ run i s = .next t) ∨ t = plainAccess s a := by
  simp only [serve] at h
  split at h
  · rename_i i hi
    exact .inl ⟨i, hi, h⟩
  · cases h
    exact .inr rfl

/-- A core inside a command: the operation it selects, after which a DECODE completes, or a hand-over. -/
theorem coreStep_eq_next {s t : State} (h : coreStep s = .next t) :
    (∃ i u, selectOp s = some i ∧ exec i s = .next u ∧ (t = u ∨ t = finish u)) ∨ advance s = .next t := by
  simp only [coreStep] at h
  split at h
  · rename_i i hi
    simp only [afterOp] at h
    split at h
    · obtain ⟨u, hu, ht⟩ := andThen_eq_next.1 h
      cases ht
      exact .inl ⟨i, u, hi, hu, .inr rfl⟩
    · exact .inl ⟨i, t, hi, h, .inl rfl⟩
  · exact .inr h

/-- No unit selects a host command. -/
theorem selectOp_ne_sreset (s : State) : selectOp s ≠ some .sreset := by
  intro h
  unfold selectOp at h
  repeat' split at h
  all_goals cases h

/-- A hand-over between units writes neither the decoder state nor a counter. -/
theorem advance_decoderKept {s t : State} (h : advance s = .next t) : DecoderKept s t := by
  unfold advance at h
  repeat' split at h
  all_goals cases h
  all_goals exact ⟨rfl, rfl, rfl⟩

/-- A host write of a CSR other than CMD does not reach the decoder state or a counter (R31). -/
theorem csrWrite_decoderKept (s : State) (n : Nat) (v : Word) : DecoderKept s (csrWrite s n v) := by
  unfold csrWrite
  repeat' split
  all_goals exact ⟨rfl, rfl, rfl⟩

theorem plainAccess_decoderKept {s : State} {a : HostAct} (ha : a ≠ .hardwareReset) :
    DecoderKept s (plainAccess s a) := by
  cases a with
  | writeCsr n v => exact csrWrite_decoderKept s n v
  | hardwareReset => exact absurd rfl ha
  | writeIn k r => exact ⟨rfl, rfl, rfl⟩
  | writeRs k r => exact ⟨rfl, rfl, rfl⟩
  | readCsr n => simp only [plainAccess]; split <;> exact ⟨rfl, rfl, rfl⟩
  | readIn k => simp only [plainAccess]; split <;> exact ⟨rfl, rfl, rfl⟩
  | readRs k => simp only [plainAccess]; split <;> exact ⟨rfl, rfl, rfl⟩
  | readEv k => simp only [plainAccess]; split <;> exact ⟨rfl, rfl, rfl⟩

theorem serve_countersLe {a : HostAct} {s t : State} (hr : a ≠ .hardwareReset) (hs : a ≠ .writeCsr 0 1)
    (h : serve exec a s = .next t) : CountersLe s t := by
  rcases serve_eq_next h with ⟨i, hi, he⟩ | rfl
  · refine exec_countersLe ?_ he
    rintro rfl
    exact hs (eq_writeCsr_of_decodeHost_sreset hi)
  · exact (plainAccess_decoderKept hr).countersLe

theorem coreStep_countersLe {s t : State} (h : coreStep s = .next t) : CountersLe s t := by
  rcases coreStep_eq_next h with ⟨i, u, hi, he, ht⟩ | hadv
  · have hu : CountersLe s u := exec_countersLe (fun hs => selectOp_ne_sreset s (hs ▸ hi)) he
    rcases ht with rfl | rfl
    · exact hu
    · exact ⟨hu.dec, hu.frameCount⟩
  · exact (advance_decoderKept hadv).countersLe

/-- Settles O57: an idle core serves an access that is no SRESET, a busy one takes a micro-operation or a hand-over, and
no one of them lowers a counter. -/
theorem countersNeverDecrease : Obligations.CountersNeverDecrease := by
  intro s t h hr hs
  suffices hle : CountersLe s t from ⟨hle.dec.good, hle.dec.lost, hle.dec.errors, hle.frameCount⟩
  by_cases ha : s.act = .idle
  · cases hh : s.host with
    | nil =>
      rw [step_quiet ha hh] at h
      cases h
      exact .refl s
    | cons a rest =>
      have hreset : a ≠ .hardwareReset := by
        rintro rfl
        exact hr (by rw [hh]; rfl)
      have hsreset : a ≠ .writeCsr 0 1 := by
        rintro rfl
        exact hs ⟨ha, by rw [hh]; rfl⟩
      rw [step_idle ha hh hreset] at h
      obtain ⟨hd, hf⟩ := serve_countersLe hreset hsreset h
      exact ⟨hd, hf⟩
  · rw [step_busy hr ha] at h
    exact coreStep_countersLe h

end Sys2Proof.Machine
end

-- ==== the host's port: the records, and what every read leaves unchanged ====
section
/-! Proofs about the host's accesses to whole records (spec/20_memory.md R66) and the side effects of its reads (R67). -/

namespace Sys2Proof.Machine

/-- Settles O28: a write of a record is a plain access, and stores into that memory at that index. -/
theorem hostRecordWritesChangeOneRecord : Obligations.HostRecordWritesChangeOneRecord := by
  intro s k rest ha
  constructor
  · intro r hh
    exact ⟨_, step_plainAccess ha hh (by simp) rfl, rfl, fun a => inAt_write { s with host := rest } k.toNat a r⟩
  · intro r hh
    exact ⟨_, step_plainAccess ha hh (by simp) rfl, rfl, fun a => rsAt_write { s with host := rest } k.toNat a r⟩

-- ---------------------------------------------------------------- a read below the length

theorem plainAccess_readIn_of_lt {s : State} {k : Word} (h : k.toNat < s.cfg.inLen.toNat) :
    plainAccess s (.readIn k) = s.answer (.inRec (s.inAt k.toNat)) :=
  if_pos h

theorem plainAccess_readRs_of_lt {s : State} {k : Word} (h : k.toNat < s.rsLen.toNat) :
    plainAccess s (.readRs k) = s.answer (.rsRec (s.rsAt k.toNat)) :=
  if_pos h

theorem plainAccess_readEv_of_getElem? {s : State} {k : Word} {e : EvRec} (h : s.ev[k.toNat]? = some e) :
    plainAccess s (.readEv k) = s.answer (.evRec e) := by
  simp only [plainAccess, h]

-- ---------------------------------------------------------------- every read

/-- R67: from s, a host read leaves t: a value stands at the host's port, for which the model drew at most one free value
(log 5), and nothing else is written. -/
def Answered (s t : State) : Prop :=
  ∃ r d, t = { s with reply := some r, draws := d } ∧ s.draws ≤ d ∧ d ≤ s.draws + 1

theorem Answered.answer (s : State) (r : Reply) : Answered s (s.answer r) :=
  ⟨r, s.draws, rfl, le_rfl, Nat.le_succ _⟩

theorem Answered.answerFree (s : State) (f : Nat → Reply) : Answered s (s.answerFree f) :=
  ⟨f s.draws, s.draws + 1, rfl, Nat.le_succ _, le_rfl⟩

/-- The host's reads, of a CSR number or of a record (R66). -/
def isRead : HostAct → Bool
  | .readCsr _ | .readIn _ | .readRs _ | .readEv _ => true
  | .writeCsr _ _ | .writeIn _ _ | .writeRs _ _ | .hardwareReset => false

/-- A plain read answers the value that stands there, or a free one where none does. -/
theorem plainAccess_answered {a : HostAct} (hread : isRead a = true) (s : State) : Answered s (plainAccess s a) := by
  cases a with
  | readCsr n | readIn k | readRs k | readEv k =>
    simp only [plainAccess]
    split
    · exact .answer s _
    · exact .answerFree s _
  | _ => cases hread

theorem exec_losspct_answered (s : State) : ∃ t, exec .losspct s = .next t ∧ Answered s t := by
  by_cases h : lossValid s = true
  · exact ⟨_, exec_losspct_of_valid h, .answer s _⟩
  · exact ⟨_, exec_losspct_of_not_valid h, .answerFree s fun d => .csr ((Config.freeLossPct d).setWidth 32)⟩

theorem exec_norm_answered {n : Nat} (h : 1 ≤ n ∧ n ≤ 18) (s : State) :
    ∃ t, exec (.norm n) s = .next t ∧ Answered s t :=
  ⟨_, if_pos h, .answer s _⟩

/-- The operations that a host read selects are the two views, NORM with an index in its range (R31, R103). -/
theorem eq_view_of_decodeHost_read {a : HostAct} {i : Instr} (hread : isRead a = true) (h : decodeHost a = some i) :
    i = .losspct ∨ ∃ m, i = .norm m ∧ 1 ≤ m ∧ m ≤ 18 := by
  cases a with
  | readCsr n =>
    simp only [decodeHost] at h
    split at h
    case isTrue => exact .inl (Option.some.inj h).symm
    case isFalse =>
      split at h
      case isTrue hn => exact .inr ⟨_, (Option.some.inj h).symm, by omega, by omega⟩
      case isFalse => cases h
  | readIn k | readRs k | readEv k => cases h
  | _ => cases hread

/-- R67: between commands every host read, of a record, a register or a view, is answered and does no more. -/
theorem step_read_answered {s : State} {a : HostAct} {rest : List HostAct} (ha : s.act = .idle)
    (hh : s.host = a :: rest) (hread : isRead a = true) :
    ∃ t, step s = .next t ∧ Answered { s with host := rest } t := by
  have hreset : a ≠ .hardwareReset := by
    rintro rfl
    cases hread
  cases hd : decodeHost a with
  | none => exact ⟨_, step_plainAccess ha hh hreset hd, plainAccess_answered hread _⟩
  | some i =>
    simp only [step_idle ha hh hreset, serve, hd]
    obtain rfl | ⟨m, rfl, hm⟩ := eq_view_of_decodeHost_read hread hd
    · exact exec_losspct_answered _
    · exact exec_norm_answered hm _

/-- Settles O29: a record read is a plain access, which below the length answers the record; and every read is answered
and does no more. -/
theorem hostReadsHaveNoSideEffect : Obligations.HostReadsHaveNoSideEffect := by
  intro s k rest ha
  refine ⟨?_, ?_, ?_, ?_⟩
  · intro hh hk
    exact (step_plainAccess ha hh (by simp) rfl).trans (congrArg _ (plainAccess_readIn_of_lt hk))
  · intro hh hk
    exact (step_plainAccess ha hh (by simp) rfl).trans (congrArg _ (plainAccess_readRs_of_lt hk))
  · intro e hh he
    exact (step_plainAccess ha hh (by simp) rfl).trans (congrArg _ (plainAccess_readEv_of_getElem? he))
  · intro a hreads hh
    have hread : isRead a = true := by
      obtain rfl | rfl | rfl | ⟨n, rfl⟩ := hreads <;> rfl
    obtain ⟨_, hstep, r, d, rfl, hdraws⟩ := step_read_answered ha hh hread
    exact ⟨r, d, hstep, hdraws⟩

end Sys2Proof.Machine
end

-- ==== the encodings: command words, packed records, frames and event kinds ====
section
/-! Proofs about the encodings of spec/30_encoding.md: the host accesses that select an operation (R31, R91, R103), and
the packed formats (R92, R93, R97, R101). -/

namespace Sys2Proof

/-- R104, R142: a word is reserved by its ZERO field or by its OPCODE. -/
theorem isReservedWord_iff {w : Word} :
    isReservedWord w = true ↔ cmdZero w ≠ 0 ∨ 7 ≤ (cmdOpcode w).toNat := by
  simp only [isReservedWord, cmdZero, cmdOpcode, Bool.or_eq_true, bne_iff_ne, decide_eq_true_eq]

/-- The words that are not reserved are the numbers of the seven commands (R91). -/
theorem toNat_lt_of_not_isReservedWord {w : Word} (h : ¬isReservedWord w = true) : w.toNat < 7 := by
  obtain ⟨hzero, hopcode⟩ := not_or.1 (mt isReservedWord_iff.2 h)
  rw [Machine.toNat_commandWord w, not_not.1 hzero]
  simpa using hopcode

/-- A word that is not reserved is one of seven: what holds for each of these holds for it. -/
theorem commandWord_cases {P : Word → Prop} {w : Word} (h : ¬isReservedWord w = true)
    (hcommands : ∀ k : Fin 7, P (BitVec.ofNat 32 k)) : P w := by
  have hw := hcommands ⟨w.toNat, toNat_lt_of_not_isReservedWord h⟩
  rwa [BitVec.ofNat_toNat, BitVec.setWidth_eq] at hw

theorem decodeCmd_of_isReservedWord {w : Word} (h : isReservedWord w = true) : decodeCmd w = .reservedCommand w := by
  unfold decodeCmd
  split
  case isTrue => rfl
  case isFalse hzero =>
    have hopcode := (isReservedWord_iff.1 h).resolve_left hzero
    split
    case h_8 => rfl
    all_goals omega

/-- R91: a command word selects a well-formed operation, whose encoding is the write of that word. -/
theorem decodeCmd_wellFormed_encode (w : Word) :
    (decodeCmd w).wellFormed = true ∧ encode (decodeCmd w) = some (.writeCsr csrCmd w) := by
  by_cases h : isReservedWord w = true
  · rw [decodeCmd_of_isReservedWord h]
    exact ⟨h, rfl⟩
  · exact commandWord_cases (P := fun w => (decodeCmd w).wellFormed = true ∧
      encode (decodeCmd w) = some (.writeCsr csrCmd w)) h (by decide)

/-- The CSR number of NORMn names no other view (R31). -/
theorem decodeHost_readCsr_norm {n : Nat} (h : 1 ≤ n ∧ n ≤ 18) :
    decodeHost (.readCsr (csrNorm + (n - 1))) = some (.norm n) := by
  have hn : csrNorm + (n - 1) - csrNorm + 1 = n := by omega
  simp only [decodeHost, if_neg (show csrNorm + (n - 1) ≠ csrLossPct by simp only [csrNorm, csrLossPct]; omega),
    if_pos (show csrNorm ≤ csrNorm + (n - 1) ∧ csrNorm + (n - 1) < csrNorm + 18 by omega), hn]

/-- Settles O2: by the operation; a reserved word goes through `decodeCmd`, NORM through its CSR number, the other
encodings are fixed, and a micro-operation has none. -/
theorem encodedOperationsDecodeBack : Obligations.EncodedOperationsDecodeBack := by
  intro i a hwf henc
  cases i with
  | reservedCommand w =>
    cases henc
    exact congrArg some (decodeCmd_of_isReservedWord hwf)
  | norm n =>
    cases henc
    exact decodeHost_readCsr_norm (of_decide_eq_true hwf)
  | nop | sreset | run | resample | frame | decode | modedet | losspct =>
    cases henc
    rfl
  | _ => cases henc

/-- Settles O3: by the access; a write of CMD goes through the command words, a read through the CSR numbers of the
views. -/
theorem decodedAccessesEncodeBack : Obligations.DecodedAccessesEncodeBack := by
  intro a i h
  cases a with
  | writeCsr n w =>
    simp only [decodeHost] at h
    split at h
    case isTrue hn =>
      cases h
      rw [hn]
      exact decodeCmd_wellFormed_encode w
    case isFalse => cases h
  | readCsr n =>
    simp only [decodeHost] at h
    split at h
    case isTrue hn =>
      cases h
      exact ⟨rfl, by rw [hn]; rfl⟩
    case isFalse =>
      split at h
      case isTrue hn =>
        cases h
        have hnum : csrNorm + (n - csrNorm + 1 - 1) = n := by omega
        exact ⟨decide_eq_true (by omega), by simp only [encode, hnum]⟩
      case isFalse => cases h
  | _ => cases h

/-- Settles O1: fixed words, by evaluation of the decoders. -/
theorem tableWordsSelectTheirOperations : Obligations.TableWordsSelectTheirOperations := by
  unfold Obligations.TableWordsSelectTheirOperations
  decide

-- ---------------------------------------------------------------- packed records

theorem unpackIn_packIn (r : InRec) : unpackIn (packIn r) = r := by
  simp only [unpackIn, packIn, BitVec.extractLsb'_append_eq_left, BitVec.extractLsb'_append_eq_right]

theorem packIn_unpackIn (w : BitVec 72) : packIn (unpackIn w) = w :=
  (BitVec.extractLsb'_append_extractLsb'_eq_extractLsb' rfl).trans BitVec.extractLsb'_eq_self

/-- A 1-bit field is the bit at its place. -/
theorem ofBool_getLsbD {n : Nat} (x : BitVec n) (k : Nat) : BitVec.ofBool (x.getLsbD k) = x.extractLsb' k 1 := by
  refine BitVec.eq_of_getLsbD_eq fun i hi => ?_
  obtain rfl : i = 0 := Nat.lt_one_iff.1 hi
  simp

theorem unpackRs_packRs (r : RsRec) : unpackRs (packRs r) = r := by
  have hbit : (BitVec.ofBool r.bit ++ r.ts).getLsbD 64 = r.bit := by
    rw [BitVec.getLsbD_append, if_neg (lt_irrefl 64), BitVec.getLsbD_ofBool, Nat.sub_self, decide_eq_true rfl,
      Bool.true_and]
  simp only [unpackRs, packRs, BitVec.extractLsb'_append_eq_right, hbit]

theorem packRs_unpackRs (w : BitVec 65) : packRs (unpackRs w) = w := by
  simp only [packRs, unpackRs, ofBool_getLsbD]
  exact (BitVec.extractLsb'_append_extractLsb'_eq_extractLsb' rfl).trans BitVec.extractLsb'_eq_self

-- ---------------------------------------------------------------- the frame F25

/-- One more byte at the low end of a frame: the step of `frameOfBytes` (R97). -/
def pushByte (f : BitVec 200) (b : Byte) : BitVec 200 := f <<< 8 ||| b.setWidth 200

theorem frameOfBytes_eq_foldl (fb : Vector Byte 25) : frameOfBytes fb = fb.toList.foldl pushByte 0 := rfl

theorem extractLsb'_pushByte_zero (f : BitVec 200) (b : Byte) : (pushByte f b).extractLsb' 0 8 = b := by
  refine BitVec.eq_of_getLsbD_eq fun i hi => ?_
  simp [pushByte, hi, show i < 200 by omega]

/-- The bytes already there move up by one place, unless they leave the frame. -/
theorem extractLsb'_pushByte_add {n : Nat} (h : n + 16 ≤ 200) (f : BitVec 200) (b : Byte) :
    (pushByte f b).extractLsb' (n + 8) 8 = f.extractLsb' n 8 := by
  refine BitVec.eq_of_getLsbD_eq fun i hi => ?_
  have hlow : b.getLsbD (n + 8 + i) = false := BitVec.getLsbD_of_ge _ _ (by omega)
  have hmoved : n + 8 + i - 8 = n + i := by omega
  simp only [pushByte, BitVec.getLsbD_extractLsb', BitVec.getLsbD_or, BitVec.getLsbD_shiftLeft,
    BitVec.getLsbD_setWidth, hlow, hmoved, decide_eq_true (show n + 8 + i < 200 by omega),
    decide_eq_false (show ¬n + 8 + i < 8 by omega), Bool.not_false, Bool.true_and, Bool.and_false, Bool.or_false]

/-- The first byte pushed is the highest. -/
theorem extractLsb'_foldl_pushByte (l : List Byte) (hl : 8 * l.length ≤ 200) (k : Nat) (hk : k < l.length) :
    (l.foldl pushByte 0).extractLsb' (8 * (l.length - 1 - k)) 8 = l[k] := by
  induction l using List.reverseRecOn with
  | nil => exact absurd hk (Nat.not_lt_zero k)
  | append_singleton l b ih =>
    simp only [List.length_append, List.length_singleton] at hl hk
    simp only [List.foldl_concat, List.length_append, List.length_singleton]
    rcases Nat.lt_succ_iff_lt_or_eq.1 hk with hk | rfl
    · have hplace : 8 * (l.length + 1 - 1 - k) = 8 * (l.length - 1 - k) + 8 := by omega
      rw [hplace, extractLsb'_pushByte_add (by omega), ih (by omega) hk, List.getElem_append_left hk]
    · simp [extractLsb'_pushByte_zero]

/-- R97: FB[k] is the bits 199 - 8k down to 192 - 8k of its frame. -/
theorem extractLsb'_frameOfBytes (fb : Vector Byte 25) {k : Nat} (hk : k < 25) :
    (frameOfBytes fb).extractLsb' (192 - 8 * k) 8 = Machine.fbAt fb k := by
  have hlen : fb.toList.length = 25 := fb.length_toList
  have hbyte := extractLsb'_foldl_pushByte fb.toList (by omega) k (by omega)
  have hplace : 8 * (fb.toList.length - 1 - k) = 192 - 8 * k := by omega
  rw [frameOfBytes_eq_foldl, ← hplace, hbyte]
  simp [Machine.fbAt, hk]

theorem fbAt_bytesOfFrame (f : BitVec 200) {k : Nat} (hk : k < 25) :
    Machine.fbAt (bytesOfFrame f) k = f.extractLsb' (192 - 8 * k) 8 := by
  simp [Machine.fbAt, bytesOfFrame, hk]

/-- Two frames with the same 25 bytes are the same: every bit is in one of them. -/
theorem frame_ext {f g : BitVec 200}
    (h : ∀ k, k < 25 → f.extractLsb' (192 - 8 * k) 8 = g.extractLsb' (192 - 8 * k) 8) : f = g := by
  refine BitVec.eq_of_getLsbD_eq fun i hi => ?_
  have hbit := congrArg (BitVec.getLsbD · (i % 8)) (h (24 - i / 8) (by omega))
  have hplace : 192 - 8 * (24 - i / 8) + i % 8 = i := by omega
  simpa [BitVec.getLsbD_extractLsb', Nat.mod_lt i (by decide : 0 < 8), hplace] using hbit

theorem bytesOfFrame_frameOfBytes (fb : Vector Byte 25) : bytesOfFrame (frameOfBytes fb) = fb :=
  Machine.fb_ext fun _ hk => (fbAt_bytesOfFrame _ hk).trans (extractLsb'_frameOfBytes fb hk)

theorem frameOfBytes_bytesOfFrame (f : BitVec 200) : frameOfBytes (bytesOfFrame f) = f :=
  frame_ext fun _ hk => (extractLsb'_frameOfBytes _ hk).trans (fbAt_bytesOfFrame f hk)

-- ---------------------------------------------------------------- the field KIND

theorem kindOf_kindCode (k : EvKind) : kindOf (kindCode k) = k := by
  cases k <;> rfl

/-- R101: the four codes are all the values of the field. -/
theorem kindCode_kindOf : ∀ c : BitVec 2, kindCode (kindOf c) = c := by decide

/-- Settles O5: assembled from the round trip of each format. -/
theorem packedFormatsRoundTrip : Obligations.PackedFormatsRoundTrip :=
  ⟨unpackIn_packIn, packIn_unpackIn, unpackRs_packRs, packRs_unpackRs, bytesOfFrame_frameOfBytes,
    frameOfBytes_bytesOfFrame, fun fb _ hk => (extractLsb'_frameOfBytes fb hk).symm, kindOf_kindCode, kindCode_kindOf,
    rfl, rfl, rfl, rfl⟩

end Sys2Proof
end

-- ==== which operation a unit's state selects ====
section
/-! Proofs about the selectors of R103 (spec/30_encoding.md, column "selected when"): when each one holds, the one operation
that a unit's state selects, its step, and the refusal of the others (log 11). -/

namespace Sys2Proof.Machine

-- ---------------------------------------------------------------- when each selector holds

/-- The FSU compares two records only where both are below RS_LEN (R203). -/
theorem lt_of_syncGap {s : State} {d : Nat} (h : syncGap s = some d) : s.fsu.i.toNat + 1 < s.rsLen.toNat := by
  simp only [syncGap] at h
  split at h
  · assumption
  · cases h

theorem inSync_iff {s : State} : inSync s = true ↔ s.act = .fsuWalk ∧ ∃ d, syncGap s = some d ∧ d ≤ spb s := by
  simp only [inSync, Bool.and_eq_true, beq_iff_eq, Option.any_eq_true, decide_eq_true_eq]

theorem selFrShift_iff {s : State} : selFrShift s = true ↔ inSync s = true ∧ s.fsu.bitcnt.toNat < 11 := by
  simp only [selFrShift, Bool.and_eq_true, decide_eq_true_eq]

theorem selFrWord_iff {s : State} :
    selFrWord s = true ↔ inSync s = true ∧ s.fsu.bitcnt.toNat = 11 ∧ s.fsu.bytecnt.toNat < 24 := by
  simp only [selFrWord, Bool.and_eq_true, decide_eq_true_eq, and_assoc]

theorem selFrFrame_iff {s : State} :
    selFrFrame s = true ↔ inSync s = true ∧ s.fsu.bitcnt.toNat = 11 ∧ s.fsu.bytecnt.toNat = 24 := by
  simp only [selFrFrame, Bool.and_eq_true, decide_eq_true_eq, and_assoc]

theorem selFrDesync_iff {s : State} :
    selFrDesync s = true ↔ s.act = .fsuWalk ∧ ∃ d, syncGap s = some d ∧ spb s < d := by
  simp only [selFrDesync, Bool.and_eq_true, beq_iff_eq, Option.any_eq_true, decide_eq_true_eq]

theorem selFrTail_iff {s : State} :
    selFrTail s = true ↔ s.act = .fsuWalk ∧ s.fsu.i.toNat + 1 = s.rsLen.toNat := by
  simp only [selFrTail, Bool.and_eq_true, beq_iff_eq, decide_eq_true_eq]

theorem selRsScan_iff {s : State} :
    selRsScan s = true ↔ s.act = .scan ∧ ∃ d, scanGap s = some d ∧ d ≤ frameGap s := by
  simp only [selRsScan, Bool.and_eq_true, beq_iff_eq, Option.any_eq_true, decide_eq_true_eq]

theorem selRsStart_iff {s : State} :
    selRsStart s = true ↔ s.act = .scan ∧ ∃ d, scanGap s = some d ∧ frameGap s < d := by
  simp only [selRsStart, Bool.and_eq_true, beq_iff_eq, Option.any_eq_true, decide_eq_true_eq]

theorem frameOpen_iff {s : State} : frameOpen s = true ↔ s.act = .inFrame ∧ s.rsu.count < Config.frameBits := by
  simp only [frameOpen, Bool.and_eq_true, beq_iff_eq, decide_eq_true_eq]

theorem selRsEdge_iff {s : State} :
    selRsEdge s = true ↔ frameOpen s = true ∧ ∃ d, edgeGap s = some d ∧ d ≤ frameGap s := by
  simp only [selRsEdge, Bool.and_eq_true, Option.any_eq_true, decide_eq_true_eq]

theorem selRsFill_iff {s : State} :
    selRsFill s = true ↔ frameOpen s = true ∧ ∃ d, edgeGap s = some d ∧ frameGap s < d := by
  simp only [selRsFill, Bool.and_eq_true, Option.any_eq_true, decide_eq_true_eq]

theorem selRsClip_iff {s : State} :
    selRsClip s = true ↔ frameOpen s = true ∧ s.cfg.inLen.toNat ≤ s.rsu.k.toNat + 1 := by
  simp only [selRsClip, Bool.and_eq_true, decide_eq_true_eq]

theorem selRsTrail_iff {s : State} : selRsTrail s = true ↔ s.act = .inFrame ∧ s.rsu.count = Config.frameBits := by
  simp only [selRsTrail, Bool.and_eq_true, beq_iff_eq, decide_eq_true_eq]

theorem selMdGap_iff {s : State} : selMdGap s = true ↔ s.act = .mdu ∧ ∃ d, pairGap s = some d := by
  simp only [selMdGap, Bool.and_eq_true, beq_iff_eq, Option.isSome_iff_exists]

theorem selMdClassify_iff {s : State} : selMdClassify s = true ↔ s.act = .mdu ∧ s.mdu.stop ≤ s.mdu.q := by
  simp only [selMdClassify, Bool.and_eq_true, beq_iff_eq, decide_eq_true_eq]

-- ---------------------------------------------------------------- no two selectors of a unit hold together

theorem not_selRsScan_of_selRsStart {s : State} (h : selRsStart s = true) : ¬selRsScan s = true := by
  rw [selRsStart_iff] at h
  rw [selRsScan_iff]
  rintro ⟨-, d, hd, hle⟩
  obtain ⟨-, d', hd', hlt⟩ := h
  cases hd.symm.trans hd'
  exact hle.not_gt hlt

theorem not_selRsEdge_of_selRsFill {s : State} (h : selRsFill s = true) : ¬selRsEdge s = true := by
  rw [selRsFill_iff] at h
  rw [selRsEdge_iff]
  rintro ⟨-, d, hd, hle⟩
  obtain ⟨-, d', hd', hlt⟩ := h
  cases hd.symm.trans hd'
  exact hle.not_gt hlt

theorem not_inSync_of_selFrDesync {s : State} (h : selFrDesync s = true) : ¬inSync s = true := by
  rw [selFrDesync_iff] at h
  rw [inSync_iff]
  rintro ⟨-, d, hd, hle⟩
  obtain ⟨-, d', hd', hlt⟩ := h
  cases hd.symm.trans hd'
  exact hle.not_gt hlt

/-- At the end of the capture there is no pair to test (R159). -/
theorem edgeGap_of_selRsClip {s : State} (h : selRsClip s = true) : edgeGap s = none :=
  if_neg (selRsClip_iff.1 h).2.not_gt

theorem not_frameOpen_of_selRsTrail {s : State} (h : selRsTrail s = true) : ¬frameOpen s = true :=
  fun ho => (frameOpen_iff.1 ho).2.ne (selRsTrail_iff.1 h).2

/-- The last record has no successor to compare with (R219). -/
theorem syncGap_of_selFrTail {s : State} (h : selFrTail s = true) : syncGap s = none :=
  if_neg (selFrTail_iff.1 h).2.not_lt

theorem pairGap_of_selMdClassify {s : State} (h : selMdClassify s = true) : pairGap s = none :=
  if_neg fun hq => (selMdClassify_iff.1 h).2.not_gt hq.2

-- ---------------------------------------------------------------- the operation that each selector gives

theorem selectOp_of_selRsScan {s : State} (h : selRsScan s = true) : selectOp s = some .rsScan := by
  simp only [selectOp, (selRsScan_iff.1 h).1, if_pos h]

theorem selectOp_of_selRsStart {s : State} (h : selRsStart s = true) : selectOp s = some .rsStart := by
  simp only [selectOp, (selRsStart_iff.1 h).1, if_neg (not_selRsScan_of_selRsStart h), if_pos h]

theorem selectOp_of_selRsEdge {s : State} (h : selRsEdge s = true) : selectOp s = some .rsEdge := by
  have ha := (frameOpen_iff.1 (selRsEdge_iff.1 h).1).1
  simp only [selectOp, ha, if_pos h]

theorem selectOp_of_selRsFill {s : State} (h : selRsFill s = true) : selectOp s = some .rsFill := by
  have ha := (frameOpen_iff.1 (selRsFill_iff.1 h).1).1
  simp only [selectOp, ha, if_neg (not_selRsEdge_of_selRsFill h), if_pos h]

theorem selectOp_of_selRsClip {s : State} (h : selRsClip s = true) : selectOp s = some .rsClip := by
  have ha := (frameOpen_iff.1 (selRsClip_iff.1 h).1).1
  have hedge : ¬selRsEdge s = true := by simp [selRsEdge, edgeGap_of_selRsClip h]
  have hfill : ¬selRsFill s = true := by simp [selRsFill, edgeGap_of_selRsClip h]
  simp only [selectOp, ha, if_neg hedge, if_neg hfill, if_pos h]

theorem selectOp_of_selRsTrail {s : State} (h : selRsTrail s = true) : selectOp s = some .rsTrail := by
  have hopen := not_frameOpen_of_selRsTrail h
  have hedge : ¬selRsEdge s = true := fun he => hopen (selRsEdge_iff.1 he).1
  have hfill : ¬selRsFill s = true := fun he => hopen (selRsFill_iff.1 he).1
  have hclip : ¬selRsClip s = true := fun he => hopen (selRsClip_iff.1 he).1
  simp only [selectOp, (selRsTrail_iff.1 h).1, if_neg hedge, if_neg hfill, if_neg hclip, if_pos h]

theorem selectOp_of_selMdGap {s : State} (h : selMdGap s = true) : selectOp s = some .mdGap := by
  simp only [selectOp, (selMdGap_iff.1 h).1, if_pos h]

theorem selectOp_of_selMdClassify {s : State} (h : selMdClassify s = true) : selectOp s = some .mdClassify := by
  have hgap : ¬selMdGap s = true := by simp [selMdGap, pairGap_of_selMdClassify h]
  simp only [selectOp, (selMdClassify_iff.1 h).1, if_neg hgap, if_pos h]

theorem selectOp_of_selFrLabel {s : State} (h : selFrLabel s = true) : selectOp s = some .frLabel := by
  have ha : s.act = .fsuLabel := beq_iff_eq.1 h
  simp only [selectOp, ha]

theorem selectOp_of_selFrShift {s : State} (h : selFrShift s = true) : selectOp s = some .frShift := by
  have ha := (inSync_iff.1 (selFrShift_iff.1 h).1).1
  simp only [selectOp, ha, if_pos h]

theorem selectOp_of_selFrWord {s : State} (h : selFrWord s = true) : selectOp s = some .frWord := by
  obtain ⟨hsync, hbit, -⟩ := selFrWord_iff.1 h
  have hshift : ¬selFrShift s = true := fun he => (selFrShift_iff.1 he).2.ne hbit
  simp only [selectOp, (inSync_iff.1 hsync).1, if_neg hshift, if_pos h]

theorem selectOp_of_selFrFrame {s : State} (h : selFrFrame s = true) : selectOp s = some .frFrame := by
  obtain ⟨hsync, hbit, hbyte⟩ := selFrFrame_iff.1 h
  have hshift : ¬selFrShift s = true := fun he => (selFrShift_iff.1 he).2.ne hbit
  have hword : ¬selFrWord s = true := fun he => (selFrWord_iff.1 he).2.2.ne hbyte
  simp only [selectOp, (inSync_iff.1 hsync).1, if_neg hshift, if_neg hword, if_pos h]

/-- Out of sync, the walk collects nothing: it is FR.DESYNC or FR.TAIL (R217, R219). -/
theorem selectOp_of_not_inSync {s : State} (ha : s.act = .fsuWalk) (hsync : ¬inSync s = true) :
    selectOp s = if selFrDesync s then some .frDesync else if selFrTail s then some .frTail else none := by
  have hshift : ¬selFrShift s = true := fun he => hsync (selFrShift_iff.1 he).1
  have hword : ¬selFrWord s = true := fun he => hsync (selFrWord_iff.1 he).1
  have hframe : ¬selFrFrame s = true := fun he => hsync (selFrFrame_iff.1 he).1
  simp only [selectOp, ha, if_neg hshift, if_neg hword, if_neg hframe]

theorem selectOp_of_selFrDesync {s : State} (h : selFrDesync s = true) : selectOp s = some .frDesync := by
  rw [selectOp_of_not_inSync (selFrDesync_iff.1 h).1 (not_inSync_of_selFrDesync h), if_pos h]

theorem selectOp_of_selFrTail {s : State} (h : selFrTail s = true) : selectOp s = some .frTail := by
  have hsync : ¬inSync s = true := by simp [inSync, syncGap_of_selFrTail h]
  have hdesync : ¬selFrDesync s = true := by simp [selFrDesync, syncGap_of_selFrTail h]
  rw [selectOp_of_not_inSync (selFrTail_iff.1 h).1 hsync, if_neg hdesync, if_pos h]

-- ---------------------------------------------------------------- the Bit Resampler

/-- R153 to R155: while scanning, the gap decides between RS.SCAN and RS.START. -/
theorem selectOp_scan {s : State} {d : Nat} (ha : s.act = .scan) (hd : scanGap s = some d) :
    selectOp s = some (if d ≤ frameGap s then .rsScan else .rsStart) := by
  split
  case isTrue hle => exact selectOp_of_selRsScan (selRsScan_iff.2 ⟨ha, d, hd, hle⟩)
  case isFalse hgt => exact selectOp_of_selRsStart (selRsStart_iff.2 ⟨ha, d, hd, Nat.lt_of_not_le hgt⟩)

/-- R156, R158: in a frame that is not full, the gap decides between RS.EDGE and RS.FILL. -/
theorem selectOp_frameOpen {s : State} {d : Nat} (ho : frameOpen s = true) (hd : edgeGap s = some d) :
    selectOp s = some (if d ≤ frameGap s then .rsEdge else .rsFill) := by
  split
  case isTrue hle => exact selectOp_of_selRsEdge (selRsEdge_iff.2 ⟨ho, d, hd, hle⟩)
  case isFalse hgt => exact selectOp_of_selRsFill (selRsFill_iff.2 ⟨ho, d, hd, Nat.lt_of_not_le hgt⟩)

/-- Settles O35: each case names a selector that holds there, and that selector gives the operation. -/
theorem resamplerSelectsOneOperation : Obligations.ResamplerSelectsOneOperation := by
  intro s _
  refine ⟨?_, ?_, ?_, ?_⟩
  · rintro a b ha h1 hlen rfl rfl hlt
    exact selectOp_scan ha (scanGap_of_lt h1 hlen hlt)
  · intro ha hcount
    exact selectOp_of_selRsTrail (selRsTrail_iff.2 ⟨ha, hcount⟩)
  · intro ha hcount hend
    exact selectOp_of_selRsClip (selRsClip_iff.2 ⟨frameOpen_iff.2 ⟨ha, hcount⟩, hend⟩)
  · rintro a b ha hcount hlen rfl rfl hlt
    exact selectOp_frameOpen (frameOpen_iff.2 ⟨ha, hcount⟩) (edgeGap_of_lt hlen hlt)

-- ---------------------------------------------------------------- refusals

theorem refused_of_not_selected {sel : Bool} (h : sel = false) (m : String) (o : Out) :
    ∃ m', whenSelected sel m o = .refused (.notSelected m') :=
  ⟨m, by rw [h, whenSelected_false]⟩

/-- An operation whose selector gives it is refused where another one is selected (log 11). -/
theorem refused_of_selectOp_ne {sel : Bool} {s : State} {i : Instr} (hsel : sel = true → selectOp s = some i)
    (hne : selectOp s ≠ some i) (m : String) (o : Out) : ∃ m', whenSelected sel m o = .refused (.notSelected m') :=
  refused_of_not_selected (Bool.eq_false_iff.2 (mt hsel hne)) m o

/-- Settles O52: every operation is guarded by its selector; a unit's selector gives its operation, and the FDU's
selectors hold on frames of one kind. -/
theorem unselectedOperationsAreRefused : Obligations.UnselectedOperationsAreRefused := by
  intro s
  refine ⟨?_, ?_, ?_, ?_⟩
  · intro i hi hne
    cases i with
    | rsScan => exact refused_of_selectOp_ne selectOp_of_selRsScan hne _ _
    | rsStart => exact refused_of_selectOp_ne selectOp_of_selRsStart hne _ _
    | rsEdge => exact refused_of_selectOp_ne selectOp_of_selRsEdge hne _ _
    | rsFill => exact refused_of_selectOp_ne selectOp_of_selRsFill hne _ _
    | rsClip => exact refused_of_selectOp_ne selectOp_of_selRsClip hne _ _
    | rsTrail => exact refused_of_selectOp_ne selectOp_of_selRsTrail hne _ _
    | mdGap => exact refused_of_selectOp_ne selectOp_of_selMdGap hne _ _
    | mdClassify => exact refused_of_selectOp_ne selectOp_of_selMdClassify hne _ _
    | frLabel => exact refused_of_selectOp_ne selectOp_of_selFrLabel hne _ _
    | frShift => exact refused_of_selectOp_ne selectOp_of_selFrShift hne _ _
    | frWord => exact refused_of_selectOp_ne selectOp_of_selFrWord hne _ _
    | frFrame => exact refused_of_selectOp_ne selectOp_of_selFrFrame hne _ _
    | frDesync => exact refused_of_selectOp_ne selectOp_of_selFrDesync hne _ _
    | frTail => exact refused_of_selectOp_ne selectOp_of_selFrTail hne _ _
    | _ => simp at hi
  · intro hinvalid i hi
    have hkind : frameValid s.fb = false := Bool.eq_false_iff.2 (mt frameValid_iff.1 hinvalid)
    cases i with
    | decOk | decGood | decFs | decCh1 | decCh2 | decCh3 | decCh4 | decCh5 | decCh6 | decCh7 | decCh8 | decCh9
    | decCh10 | decCh11 | decCh12 | decCh13 | decCh14 | decCh15 | decCh16 | decCh17 | decCh18 =>
      exact refused_of_not_selected hkind _ _
    | decLost => exact refused_of_not_selected (by rw [hkind, Bool.false_and]) _ _
    | _ => simp at hi
  · intro hvalid
    exact refused_of_not_selected (by rw [frameValid_iff.2 hvalid, Bool.not_true]) _ _
  · intro hbit
    exact refused_of_not_selected (by rw [flagBit, hbit, Bool.and_false]) _ _

-- ---------------------------------------------------------------- the step

theorem act_ne_idle_of_selectOp {s : State} {i : Instr} (h : selectOp s = some i) : s.act ≠ .idle := by
  intro ha
  simp only [selectOp, ha] at h
  cases h

/-- Settles O8: a busy core takes the selected operation, after which a DECODE completes. -/
theorem stepRunsTheSelectedOperation : Obligations.StepRunsTheSelectedOperation := by
  intro s i hr hi
  have hstep : step s = afterOp s.act (exec i s) := by
    simp only [step_busy hr (act_ne_idle_of_selectOp hi), coreStep, hi]
  constructor
  · intro ha
    rw [hstep, afterOp, if_neg ha]
  · intro ha t ht
    rw [hstep, afterOp, if_pos ha, ht, andThen_next, finish_eq]

end Sys2Proof.Machine
end

-- ==== the invariant of every run ====
section
/-! Proofs about `StateInv`: every operation, hand-over and host access keeps it, and so does every step (spec/10_state.md
R20, R29, R30, R32, R33, R42, spec/30_encoding.md R104, spec/40_commands.md R132). -/

namespace Sys2Proof.Machine

-- ---------------------------------------------------------------- the parts of the invariant that need an argument

/-- STATUS while a command is in progress (R132): not done, and no exception raised. -/
def InProgress (s : State) : Prop := s.status.done = false ∧ s.status.err = 0

theorem InProgress.of_status_eq {s t : State} (h : InProgress s) (he : t.status = s.status) : InProgress t := by
  simpa only [InProgress, he] using h

theorem prologue_inProgress (s : State) : InProgress s.prologue := ⟨rfl, rfl⟩

theorem StateInv.inProgress {s : State} (h : StateInv s) {a : Activity} (ha : s.act = a) (hne : a ≠ .idle) :
    InProgress s :=
  h.busyStatus (ha ▸ hne)

/-- R33: an index within RS is at most the whole of it. -/
theorem toNat_progressPct_le {i last : Nat} (h : i ≤ last) : (progressPct i last).toNat ≤ 100 := by
  have hpct : 100 * i / last ≤ 100 := Nat.div_le_of_le_mul (by omega)
  rw [progressPct, BitVec.toNat_ofNat]
  exact (Nat.mod_le _ _).trans hpct

/-- R32: the percentage that closes a frame. -/
theorem toNat_lossPct_le (s : State) : (lossPct s).toNat ≤ 100 :=
  (toNat_lossPct s).trans_le (lossPercent_le _ _ _)

/-- R101, R104: the MDU returns LOW_SPEED or HIGH_SPEED. -/
theorem classify_ne_three (rate g : Nat) : classify rate g ≠ 3 := by
  simp only [classify]
  split <;> decide

/-- Below the place of the new bit, RAW is as before. -/
theorem getLsbD_shiftIn {raw : W12} {b : Bool} {c : BitVec 4} {k : Nat} (h : k < 11 - c.toNat) :
    (shiftIn raw b c).getLsbD k = raw.getLsbD k := by
  simp only [shiftIn, BitVec.getLsbD_or, BitVec.getLsbD_shiftLeft, decide_eq_true h, Bool.not_true, Bool.and_false,
    Bool.false_and, Bool.or_false]

theorem lt_of_inSync {s : State} (h : inSync s = true) : s.fsu.i.toNat + 1 < s.rsLen.toNat := by
  obtain ⟨-, d, hd, -⟩ := inSync_iff.1 h
  exact lt_of_syncGap hd

-- ---------------------------------------------------------------- prologue, epilogue, exceptions, resets

theorem prologue_inv {s : State} (h : StateInv s) : StateInv s.prologue :=
  { h with
    errCode := Nat.zero_le _
    doneNoErr := nofun
    busyStatus := fun _ => prologue_inProgress s }

theorem epilogue_inv {s : State} (h : StateInv s) (ha : s.act = .idle) (he : s.status.err = 0) :
    StateInv s.epilogue :=
  { h with
    doneNoErr := fun _ => he
    busyStatus := fun hb => absurd ha hb }

theorem finish_inv {s : State} (h : StateInv s) (he : s.status.err = 0) : StateInv (finish s) :=
  epilogue_inv (s := s.goIdle) { h with busyStatus := fun hb => absurd rfl hb } rfl he

/-- R296: the code is one of the three, and its bit of ERRLOG is not the reserved one. -/
theorem takeException_inv {s : State} (h : StateInv s) (ha : s.act = .idle) (e : Exc) :
    StateInv (s.prologue.takeException e) :=
  { h with
    errCode := by
      have hcode : (BitVec.ofNat 4 (excCode e)).toNat ≤ 3 := by cases e <;> decide
      exact hcode
    errlogReserved := by
      have hbit : (BitVec.twoPow 4 (excCode e - 1)).getLsbD 3 = false := by cases e <;> decide
      exact (BitVec.getLsbD_or ..).trans (by rw [hbit, Bool.or_false]; exact h.errlogReserved)
    doneNoErr := nofun
    busyStatus := fun hb => absurd ha hb }

theorem resetWith_inv (p : Config.Params) : StateInv (State.resetWith p) where
  inWf := rfl
  rsWf := rfl
  histWf := rfl
  errCode := Nat.zero_le _
  errlogReserved := BitVec.getLsbD_zero
  doneNoErr := nofun
  busyStatus := fun hb => absurd rfl hb
  modeEff := nofun
  mduMode := nofun
  digital17 := .inl rfl
  digital18 := .inl rfl
  prevLoss := Nat.zero_le _
  progress := Nat.zero_le _
  prog := nofun
  bitcnt := Nat.zero_le _
  bytecnt := Nat.zero_le _
  rawUnreceived := fun _ _ => BitVec.getLsbD_zero
  count := Nat.zero_le _

theorem hardwareReset_inv (s : State) : StateInv s.hardwareReset :=
  { resetWith_inv s.par with }

/-- R134: what SRESET clears is as after reset, and the rest is as it was. -/
theorem clearSession_inv {s : State} (h : StateInv s) : StateInv s.clearSession :=
  { resetWith_inv s.par with
    inWf := h.inWf
    errCode := h.errCode
    doneNoErr := h.doneNoErr
    busyStatus := h.busyStatus
    prog := h.prog }

-- ---------------------------------------------------------------- the Frame Decoder

/-- R20: a valid frame leaves the digital channels at 0 or 2047; an error frame leaves them alone. -/
theorem fdu_inv {s t : State} (h : StateInv s) (e : fdu s = .next t) : StateInv t := by
  rcases fdu_eq_next e with ⟨-, -, -, rfl⟩ | ⟨-, -, rfl⟩
  · exact { h with
      digital17 := digital_cases (flagBit s.fb 7)
      digital18 := digital_cases (flagBit s.fb 6) }
  · exact { h with }

theorem fdu_only {s t : State} (h : fdu s = .next t) : t = { s with dec := t.dec } := by
  rcases fdu_eq_next h with ⟨-, -, -, rfl⟩ | ⟨-, -, rfl⟩ <;> rfl

-- ---------------------------------------------------------------- the Frame Synchronizer

theorem stepEnd_inv {s : State} (h : StateInv s) (hi : s.fsu.i.toNat + 1 ≤ s.rsLen.toNat) : StateInv (stepEnd s) :=
  { h with
    progress := toNat_progressPct_le hi
    prog := fun p hp => by
      rcases List.mem_append.1 hp with hp | hp
      · exact h.prog p hp
      · rw [List.mem_singleton.1 hp]
        exact toNat_progressPct_le hi }

theorem execFrLabel_inv {s t : State} (h : StateInv s) (e : execFrLabel s = .next t) : StateInv t := by
  obtain ⟨hsel, -, rfl⟩ := execFrLabel_eq_next.1 e
  exact { h with busyStatus := fun _ => h.inProgress (beq_iff_eq.1 hsel) nofun }

/-- R29: the new bit takes the highest free place of RAW, so that one place fewer is free. -/
theorem execFrShift_inv {s t : State} (h : StateInv s) (e : execFrShift s = .next t) : StateInv t := by
  obtain ⟨hsel, rfl⟩ := execFrShift_eq_next.1 e
  obtain ⟨hsync, hbit⟩ := selFrShift_iff.1 hsel
  have hnext : (s.fsu.bitcnt + 1).toNat = s.fsu.bitcnt.toNat + 1 := by
    rw [BitVec.toNat_add]
    exact Nat.mod_eq_of_lt (Nat.lt_of_lt_of_le (Nat.succ_lt_succ hbit) (by decide))
  refine stepEnd_inv { h with
    bitcnt := hnext.trans_le hbit
    rawUnreceived := fun k hk => ?_ } (lt_of_inSync hsync).le
  have hk : k + (s.fsu.bitcnt.toNat + 1) < 12 := hnext ▸ hk
  exact (getLsbD_shiftIn (by omega)).trans (h.rawUnreceived k (by omega))

theorem execFrWord_inv {s t : State} (h : StateInv s) (e : execFrWord s = .next t) : StateInv t := by
  obtain ⟨hsel, -, rfl⟩ := execFrWord_eq_next.1 e
  obtain ⟨hsync, -, hbyte⟩ := selFrWord_iff.1 hsel
  have hnext : (s.fsu.bytecnt + 1).toNat = s.fsu.bytecnt.toNat + 1 := by
    rw [BitVec.toNat_add]
    exact Nat.mod_eq_of_lt (Nat.lt_of_lt_of_le (Nat.succ_lt_succ hbyte) (by decide))
  exact stepEnd_inv { h with
    bitcnt := Nat.zero_le _
    bytecnt := hnext.trans_le hbyte
    rawUnreceived := fun _ _ => BitVec.getLsbD_zero } (lt_of_inSync hsync).le

theorem closeFrame_inv {s t : State} (h : StateInv s) (e : closeFrame s = .next t) : StateInv t := by
  obtain ⟨-, rfl⟩ := closeFrame_eq_next.1 e
  exact { h with
    prevLoss := toNat_lossPct_le s
    bytecnt := Nat.zero_le _ }

theorem execFrFrame_inv {s t : State} (h : StateInv s) (e : execFrFrame s = .next t) : StateInv t := by
  obtain ⟨hsel, -, -, d, c, hdecode, hclose, rfl⟩ := execFrFrame_eq_next.1 e
  have hd : StateInv d := by
    refine fdu_inv ?_ hdecode
    exact { h with
      bitcnt := Nat.zero_le _
      rawUnreceived := fun _ _ => BitVec.getLsbD_zero }
  refine stepEnd_inv (closeFrame_inv hd hclose) ?_
  obtain ⟨-, rfl⟩ := closeFrame_eq_next.1 hclose
  rw [fdu_only hdecode]
  exact (lt_of_inSync (selFrFrame_iff.1 hsel).1).le

theorem execFrDesync_inv {s t : State} (h : StateInv s) (e : execFrDesync s = .next t) : StateInv t := by
  obtain ⟨hsel, rfl⟩ := execFrDesync_eq_next.1 e
  obtain ⟨-, d, hd, -⟩ := selFrDesync_iff.1 hsel
  exact stepEnd_inv { h with
    bitcnt := Nat.zero_le _
    bytecnt := Nat.zero_le _
    rawUnreceived := fun _ _ => BitVec.getLsbD_zero } (lt_of_syncGap hd).le

theorem execFrTail_inv {s t : State} (h : StateInv s) (e : execFrTail s = .next t) : StateInv t := by
  obtain ⟨hsel, rfl⟩ := execFrTail_eq_next.1 e
  exact stepEnd_inv h (selFrTail_iff.1 hsel).2.le

theorem fsuStep_inv {s t : State} (h : StateInv s) (e : fsuStep s = .next t) : StateInv t := by
  rcases fsuStep_eq_next e with e | e | e | e | e
  · exact execFrShift_inv h e
  · exact execFrWord_inv h e
  · exact execFrFrame_inv h e
  · exact execFrDesync_inv h e
  · exact execFrTail_inv h e

theorem fsuBegin_inv {s : State} (h : StateInv s) (hp : InProgress s) : StateInv (fsuBegin s) :=
  { h with busyStatus := fun _ => hp }

theorem fsuInit_inv {s : State} (h : StateInv s) (hp : InProgress s) : StateInv (fsuInit s) :=
  { h with
    busyStatus := fun _ => hp
    progress := Nat.zero_le _
    bitcnt := Nat.zero_le _
    bytecnt := Nat.zero_le _
    rawUnreceived := fun _ _ => BitVec.getLsbD_zero }

theorem fsuBody_inv {s t : State} (h : StateInv s) (hp : InProgress s) (e : fsuBody s = .next t) : StateInv t := by
  obtain ⟨u, hlabel, hloop⟩ := fsuBody_eq_next.1 e
  have hu : StateInv u := execFrLabel_inv (fsuBegin_inv h hp) hlabel
  obtain ⟨-, -, rfl⟩ := execFrLabel_eq_next.1 hlabel
  exact fsuLoop_keeps StateInv (fun _ _ => fsuStep_inv) hloop (fsuInit_inv hu hp)

-- ---------------------------------------------------------------- the Bit Resampler

theorem emitBits_inv {b : Bool} {n : Nat} {s t : State} (h : StateInv s) (hn : s.rsu.count + n ≤ 300)
    (e : emitBits b n s = .next t) : StateInv t := by
  obtain ⟨-, -, hwf, ht⟩ := emitBits_eq_next e
  rw [ht]
  exact { h with
    rsWf := hwf h.rsWf
    count := hn }

theorem execRsScan_inv {s t : State} (h : StateInv s) (e : execRsScan s = .next t) : StateInv t := by
  obtain ⟨-, rfl⟩ := execRsScan_eq_next.1 e
  exact { h with }

theorem execRsStart_inv {s t : State} (h : StateInv s) (e : execRsStart s = .next t) : StateInv t := by
  obtain ⟨hsel, rfl⟩ := execRsStart_eq_next.1 e
  exact { h with
    busyStatus := fun _ => h.inProgress (selRsStart_iff.1 hsel).1 nofun
    count := Nat.zero_le _ }

/-- R156: COUNT is clamped to the 300 bits of a frame. -/
theorem execRsEdge_inv {s t : State} (h : StateInv s) (e : execRsEdge s = .next t) : StateInv t := by
  obtain ⟨-, u, hemit, rfl⟩ := execRsEdge_eq_next.1 e
  have hclamp : edgeBits s ≤ 300 - s.rsu.count := min_le_right _ _
  have hcount := h.count
  have hu : StateInv u := emitBits_inv h (by omega) hemit
  exact { hu with }

theorem execRsFill_inv {s t : State} (h : StateInv s) (e : execRsFill s = .next t) : StateInv t :=
  emitBits_inv h (Nat.add_sub_cancel' h.count).le (execRsFill_eq_next.1 e).2

theorem execRsClip_inv {s t : State} (h : StateInv s) (e : execRsClip s = .next t) : StateInv t :=
  emitBits_inv (s := { s with rsu := { s.rsu with clipped := true } }) { h with }
    (Nat.add_sub_cancel' h.count).le (execRsClip_eq_next.1 e).2

theorem execRsTrail_inv {s t : State} (h : StateInv s) (e : execRsTrail s = .next t) : StateInv t := by
  obtain ⟨hsel, -, rfl⟩ := execRsTrail_eq_next.1 e
  exact { h with
    rsWf := Memory.wf_write h.rsWf _ _
    busyStatus := fun _ => h.inProgress (selRsTrail_iff.1 hsel).1 nofun }

theorem rsuStep_inv {s t : State} (h : StateInv s) (e : rsuStep s = .next t) : StateInv t := by
  rcases rsuStep_eq_next e with e | e | e | e | e | e
  · exact execRsScan_inv h e
  · exact execRsStart_inv h e
  · exact execRsEdge_inv h e
  · exact execRsFill_inv h e
  · exact execRsClip_inv h e
  · exact execRsTrail_inv h e

theorem rsuBegin_inv {s : State} (h : StateInv s) (hp : InProgress s) : StateInv (rsuBegin s) :=
  { h with
    rsWf := rfl
    busyStatus := fun _ => hp }

theorem rsuBody_inv {s t : State} (h : StateInv s) (hp : InProgress s) (e : rsuBody s = .next t) : StateInv t :=
  rsuLoop_keeps StateInv (fun _ _ => rsuStep_inv) e (rsuBegin_inv h hp)

-- ---------------------------------------------------------------- the Mode Detector

theorem execMdGap_inv {s t : State} (h : StateInv s) (e : execMdGap s = .next t) : StateInv t := by
  obtain ⟨-, rfl⟩ := execMdGap_eq_next.1 e
  exact { h with histWf := tally_wf h.histWf _ _ }

theorem execMdClassify_inv {s t : State} (h : StateInv s) (e : execMdClassify s = .next t) : StateInv t := by
  obtain ⟨hsel, rfl⟩ := execMdClassify_eq_next.1 e
  exact { h with
    busyStatus := fun _ => h.inProgress (selMdClassify_iff.1 hsel).1 nofun
    mduMode := classify_ne_three _ _ }

theorem mduBegin_inv {s : State} (h : StateInv s) (hp : InProgress s) (a e : Nat) : StateInv (mduBegin a e s) :=
  { h with
    histWf := rfl
    busyStatus := fun _ => hp
    mduMode := nofun }

theorem mduBody_inv {a b : Nat} {s t : State} (h : StateInv s) (hp : InProgress s) (e : mduBody a b s = .next t) :
    StateInv t := by
  obtain ⟨u, hloop, hclassify⟩ := andThen_eq_next.1 e
  exact execMdClassify_inv (mduLoop_keeps StateInv (fun _ _ => execMdGap_inv) hloop (mduBegin_inv h hp a b)) hclassify

theorem storeMode_inv {s : State} (h : StateInv s) : StateInv (storeMode s) :=
  { h with modeEff := h.mduMode }

/-- R136: MODE_EFF is what the MDU returns, or the forced mode, which is not the reserved one. -/
theorem runMode_inv {s t : State} (h : StateInv s) (hp : InProgress s) (hm : s.cfg.mode ≠ 3)
    (e : runMode s = .next t) : StateInv t := by
  simp only [runMode] at e
  split at e
  · obtain ⟨u, hmdu, ht⟩ := andThen_eq_next.1 e
    cases ht
    exact storeMode_inv (mduBody_inv h hp hmdu)
  · cases e
    exact { h with modeEff := hm }

-- ---------------------------------------------------------------- the host's commands and views

/-- What a command's units start from, whether RUN or another one. -/
theorem started_inv {s : State} (h : StateInv s) (r : Bool) : StateInv { s.prologue with inRun := r } :=
  { prologue_inv h with }

theorem started_inProgress (s : State) (r : Bool) : InProgress { s.prologue with inRun := r } := ⟨rfl, rfl⟩

theorem execNop_inv {s t : State} (h : StateInv s) (ha : s.act = .idle) (e : execNop s = .next t) : StateInv t := by
  cases e
  exact epilogue_inv (prologue_inv h) ha rfl

theorem execSreset_inv {s t : State} (h : StateInv s) (ha : s.act = .idle) (e : execSreset s = .next t) :
    StateInv t := by
  cases e
  exact epilogue_inv (clearSession_inv (prologue_inv h)) ha rfl

theorem execRun_inv {s t : State} (h : StateInv s) (ha : s.act = .idle) (e : execRun s = .next t) : StateInv t := by
  rcases execRun_eq_next e with ⟨-, rfl⟩ | ⟨-, rfl⟩ | ⟨hm, a, b, c, hmode, hrsu, hfsu, rfl⟩
  · exact takeException_inv h ha _
  · exact takeException_inv h ha _
  · have hpa : InProgress a := (started_inProgress s true).of_status_eq (by rw [runMode_only hmode])
    have hpb : InProgress b := hpa.of_status_eq (by rw [rsuBody_only hrsu])
    have hpc : InProgress c := hpb.of_status_eq (by rw [fsuBody_only hfsu])
    have hia : StateInv a := runMode_inv (started_inv h true) (started_inProgress s true) hm hmode
    have hib : StateInv b := rsuBody_inv hia hpa hrsu
    exact finish_inv (fsuBody_inv hib hpb hfsu) hpc.2

theorem execResample_inv {s t : State} (h : StateInv s) (ha : s.act = .idle) (e : execResample s = .next t) :
    StateInv t := by
  rcases execResample_eq_next e with ⟨-, rfl⟩ | ⟨b, hrsu, rfl⟩
  · exact takeException_inv h ha _
  · have hpb : InProgress b := (started_inProgress s false).of_status_eq (by rw [rsuBody_only hrsu])
    exact finish_inv (rsuBody_inv (started_inv h false) (started_inProgress s false) hrsu) hpb.2

theorem execFrame_inv {s t : State} (h : StateInv s) (ha : s.act = .idle) (e : execFrame s = .next t) :
    StateInv t := by
  rcases execFrame_eq_next e with ⟨-, rfl⟩ | ⟨b, hfsu, rfl⟩
  · exact takeException_inv h ha _
  · have hpb : InProgress b := (started_inProgress s false).of_status_eq (by rw [fsuBody_only hfsu])
    exact finish_inv (fsuBody_inv (started_inv h false) (started_inProgress s false) hfsu) hpb.2

theorem execDecode_inv {s t : State} (h : StateInv s) (ha : s.act = .idle) (e : execDecode s = .next t) :
    StateInv t := by
  rcases execDecode_eq_next e with ⟨-, rfl⟩ | ⟨b, hfdu, rfl⟩
  · exact takeException_inv h ha _
  · have hb := fdu_only hfdu
    exact epilogue_inv (fdu_inv (prologue_inv h) hfdu) (by rw [hb]; exact ha) (by rw [hb]; rfl)

theorem execModedet_inv {s t : State} (h : StateInv s) (ha : s.act = .idle) (e : execModedet s = .next t) :
    StateInv t := by
  rcases execModedet_eq_next e with ⟨-, rfl⟩ | rfl | ⟨b, hmdu, rfl⟩
  · exact takeException_inv h ha _
  · exact takeException_inv h ha _
  · have hpb : InProgress b := (started_inProgress s false).of_status_eq (by rw [mduBody_only hmdu])
    exact finish_inv (storeMode_inv (mduBody_inv (started_inv h false) (started_inProgress s false) hmdu)) hpb.2

/-- R67: a read leaves the invariant, which says nothing of the host's port. -/
theorem Answered.inv {s t : State} (ht : Answered s t) (h : StateInv s) : StateInv t := by
  obtain ⟨r, d, rfl, -⟩ := ht
  exact { h with }

theorem execLosspct_inv {s t : State} (h : StateInv s) (e : exec .losspct s = .next t) : StateInv t := by
  obtain ⟨u, hu, hans⟩ := exec_losspct_answered s
  cases hu.symm.trans e
  exact hans.inv h

theorem execNorm_inv {n : Nat} {s t : State} (h : StateInv s) (e : execNorm n s = .next t) : StateInv t := by
  simp only [execNorm] at e
  split at e <;> cases e
  exact { h with }

-- ---------------------------------------------------------------- every step

/-- The operation that a host access selects, on an idle core. -/
theorem exec_host_inv {a : HostAct} {i : Instr} {s t : State} (h : StateInv s) (ha : s.act = .idle)
    (hd : decodeHost a = some i) (e : exec i s = .next t) : StateInv t := by
  cases i with
  | nop => exact execNop_inv h ha e
  | sreset => exact execSreset_inv h ha e
  | run => exact execRun_inv h ha e
  | resample => exact execResample_inv h ha e
  | frame => exact execFrame_inv h ha e
  | decode => exact execDecode_inv h ha e
  | modedet => exact execModedet_inv h ha e
  | reservedCommand w =>
    rw [execReservedCommand_eq_next e]
    exact takeException_inv h ha _
  | losspct => exact execLosspct_inv h e
  | norm n => exact execNorm_inv h e
  | _ => exact absurd hd (decodeHost_ne rfl a)

/-- The FDU about to run takes the operation that the state selects. -/
theorem fdu_of_selectOp {s : State} {i : Instr} (ha : s.act = .fdu) (h : selectOp s = some i) : fdu s = exec i s := by
  simp only [selectOp, ha] at h
  simp only [fdu]
  split at h <;> rename_i hv <;> cases h
  · exact if_pos hv
  · exact if_neg hv

/-- The operation that a unit's state selects. -/
theorem exec_selected_inv {i : Instr} {s t : State} (h : StateInv s) (hi : selectOp s = some i)
    (e : exec i s = .next t) : StateInv t := by
  cases ha : s.act with
  | scan => exact rsuStep_inv h ((rsuStep_of_selectOp (.inl ha) hi).trans e)
  | inFrame => exact rsuStep_inv h ((rsuStep_of_selectOp (.inr ha) hi).trans e)
  | fsuWalk => exact fsuStep_inv h ((fsuStep_of_selectOp ha hi).trans e)
  | fdu => exact fdu_inv h ((fdu_of_selectOp ha hi).trans e)
  | fsuLabel =>
    simp only [selectOp, ha] at hi
    cases hi
    exact execFrLabel_inv h e
  | mdu =>
    simp only [selectOp, ha] at hi
    split at hi
    · cases hi
      exact execMdGap_inv h e
    · split at hi <;> cases hi
      exact execMdClassify_inv h e
  | idle | mduDone | fsuInit =>
    simp only [selectOp, ha] at hi
    cases hi

/-- A hand-over between units, or the completion of the command. -/
theorem advance_inv {s t : State} (h : StateInv s) (e : advance s = .next t) : StateInv t := by
  cases ha : s.act with
  | mduDone =>
    have hp : InProgress s := h.inProgress ha nofun
    simp only [advance, ha] at e
    cases e
    split
    · exact rsuBegin_inv (storeMode_inv h) hp
    · exact finish_inv (storeMode_inv h) hp.2
  | scan =>
    have hp : InProgress s := h.inProgress ha nofun
    simp only [advance, ha] at e
    split at e <;> cases e
    split
    · exact fsuBegin_inv h hp
    · exact finish_inv h hp.2
  | fsuInit =>
    simp only [advance, ha] at e
    cases e
    exact fsuInit_inv h (h.inProgress ha nofun)
  | fsuWalk =>
    simp only [advance, ha] at e
    split at e <;> cases e
    exact finish_inv h (h.inProgress ha nofun).2
  | idle | mdu | inFrame | fsuLabel | fdu =>
    simp only [advance, ha] at e
    cases e

theorem coreStep_inv {s t : State} (h : StateInv s) (e : coreStep s = .next t) : StateInv t := by
  simp only [coreStep] at e
  split at e
  · rename_i i hi
    simp only [afterOp] at e
    split at e
    case isTrue ha =>
      obtain ⟨u, hu, ht⟩ := andThen_eq_next.1 e
      cases ht
      have hfdu : fdu s = .next u := (fdu_of_selectOp ha hi).trans hu
      have hp : InProgress u := (h.inProgress ha nofun).of_status_eq (by rw [fdu_only hfdu])
      exact finish_inv (fdu_inv h hfdu) hp.2
    case isFalse => exact exec_selected_inv h hi e
  · exact advance_inv h e

theorem csrWrite_inv {s : State} (h : StateInv s) (n : Nat) (v : Word) : StateInv (csrWrite s n v) := by
  unfold csrWrite
  repeat' split
  all_goals exact { h with }

theorem plainAccess_inv {s : State} (h : StateInv s) (a : HostAct) : StateInv (plainAccess s a) := by
  cases a with
  | writeCsr n v => exact csrWrite_inv h n v
  | writeIn k r => exact { h with inWf := Memory.wf_write h.inWf _ _ }
  | writeRs k r => exact { h with rsWf := Memory.wf_write h.rsWf _ _ }
  | readCsr n | readIn k | readRs k | readEv k => exact (plainAccess_answered rfl s).inv h
  | hardwareReset => exact hardwareReset_inv s

/-- Settles O59: the reset input, an access served by an idle core, and a micro-operation or hand-over of a busy one each
keep the invariant. -/
theorem everyStepKeepsTheInvariant : Obligations.EveryStepKeepsTheInvariant := by
  intro s t h e
  by_cases hr : NoReset s
  case neg =>
    obtain ⟨rest, hh⟩ := List.head?_eq_some_iff.1 (not_not.1 hr)
    rw [step_reset hh] at e
    cases e
    exact hardwareReset_inv _
  by_cases ha : s.act = .idle
  case neg => exact coreStep_inv h ((step_busy hr ha).symm.trans e)
  cases hh : s.host with
  | nil =>
    rw [step_quiet ha hh] at e
    cases e
    exact h
  | cons a rest =>
    have hreset : a ≠ .hardwareReset := by
      rintro rfl
      exact hr (by rw [hh]; rfl)
    rw [step_idle ha hh hreset] at e
    have hserved : StateInv { s with host := rest } := { h with }
    rcases serve_eq_next e with ⟨i, hd, he⟩ | rfl
    · exact exec_host_inv hserved ha hd he
    · exact plainAccess_inv hserved a

end Sys2Proof.Machine
end

-- ==== the commands without a walk: NOP, SRESET, reserved words, DECODE ====
section
/-! Proofs about a command as one step (spec/40_commands.md R131) and about the commands whose work is no walk over
records: NOP (R133), SRESET (R134), DECODE (R139) with what its frame decodes to (spec/44_decoder.md R267), and a reserved word
(R142). -/

namespace Sys2Proof.Machine

/-- Settles O7: an access that decodes to an operation is not the reset input, so an idle core serves it. -/
theorem stepRunsTheDecodedAccess : Obligations.StepRunsTheDecodedAccess := by
  intro s a rest i ha hh hd
  have hr : a ≠ .hardwareReset := by
    rintro rfl
    cases hd
  simp only [step_idle ha hh hr, serve, hd]

/-- Settles O11: NOP is the prologue and the epilogue of a command, which both write STATUS. -/
theorem nopChangesOnlyStatus : Obligations.NopChangesOnlyStatus :=
  fun _ => rfl

/-- Settles O12: SRESET is the prologue, the clearing of the session, and the epilogue. -/
theorem sresetKeepsOnlyConfigurationAndInput : Obligations.SresetKeepsOnlyConfigurationAndInput :=
  fun _ => rfl

/-- Settles O13: such a word is reserved, so it decodes to the reserved command, whose guard it meets. -/
theorem reservedWordRaisesIllegalCommand : Obligations.ReservedWordRaisesIllegalCommand := by
  intro w s h
  have hguard : cmdZero w ≠ 0 ∨ 7 ≤ (cmdOpcode w).toNat := h.symm
  rw [decodeCmd_of_isReservedWord (isReservedWord_iff.2 hguard)]
  exact if_pos hguard

-- ---------------------------------------------------------------- the channels of a frame, bit by bit

/-- R267, R268: the window of a channel that starts at bit r of FB[a] and ends in FB[a + 1], reversed. -/
theorem getLsbD_rev_window2 (fb : Vector Byte 25) {a r b : Nat} (ha : 1 ≤ a) (hr : r ≤ 5) (hb : b < 11) :
    (rev (window2 fb a (3 + r) (a + 1) (5 - r))).getLsbD b = wireBit fb (8 * (a - 1) + r + b) := by
  rw [getLsbD_rev, wireBit]
  simp only [window2, wide, BitVec.getLsbD_setWidth, BitVec.getLsbD_or, BitVec.getLsbD_shiftLeft,
    BitVec.getLsbD_ushiftRight]
  by_cases hfirst : r + b < 8
  · have hbyte : 1 + (8 * (a - 1) + r + b) / 8 = a := by omega
    have hbit : 11 - 1 - b - (3 + r) = 7 - (8 * (a - 1) + r + b) % 8 := by omega
    rw [hbyte, ← hbit, BitVec.getLsbD_of_ge (fbAt fb (a + 1)) _ (by omega)]
    simp only [Bool.and_false, Bool.or_false]
    simp (disch := omega) only [decide_eq_true, decide_eq_false, Bool.true_and, Bool.not_false]
  · have hbyte : 1 + (8 * (a - 1) + r + b) / 8 = a + 1 := by omega
    have hbit : 5 - r + (11 - 1 - b) = 7 - (8 * (a - 1) + r + b) % 8 := by omega
    rw [hbyte, ← hbit]
    simp (disch := omega) only [decide_eq_true, Bool.true_and, Bool.not_true, Bool.and_false, Bool.false_and,
      Bool.false_or]

/-- R267, R268: the window of a channel that starts at bit r of FB[a] and ends in FB[a + 2], reversed. -/
theorem getLsbD_rev_window3 (fb : Vector Byte 25) {a r b : Nat} (ha : 1 ≤ a) (hr : 6 ≤ r) (hr' : r ≤ 7) (hb : b < 11) :
    (rev (window3 fb a (3 + r) (a + 1) (r - 5) (a + 2) (13 - r))).getLsbD b = wireBit fb (8 * (a - 1) + r + b) := by
  rw [getLsbD_rev, wireBit]
  simp only [window3, wide, BitVec.getLsbD_setWidth, BitVec.getLsbD_or, BitVec.getLsbD_shiftLeft,
    BitVec.getLsbD_ushiftRight]
  by_cases hfirst : r + b < 8
  · have hbyte : 1 + (8 * (a - 1) + r + b) / 8 = a := by omega
    have hbit : 11 - 1 - b - (3 + r) = 7 - (8 * (a - 1) + r + b) % 8 := by omega
    rw [hbyte, ← hbit, BitVec.getLsbD_of_ge (fbAt fb (a + 1)) _ (by omega),
      BitVec.getLsbD_of_ge (fbAt fb (a + 2)) _ (by omega)]
    simp only [Bool.and_false, Bool.or_false]
    simp (disch := omega) only [decide_eq_true, decide_eq_false, Bool.true_and, Bool.not_false]
  by_cases hsecond : r + b < 16
  · have hbyte : 1 + (8 * (a - 1) + r + b) / 8 = a + 1 := by omega
    have hbit : 11 - 1 - b - (r - 5) = 7 - (8 * (a - 1) + r + b) % 8 := by omega
    rw [hbyte, ← hbit, BitVec.getLsbD_of_ge (fbAt fb (a + 2)) _ (by omega)]
    simp (disch := omega) only [decide_eq_true, decide_eq_false, Bool.true_and, Bool.not_true, Bool.not_false,
      Bool.and_false, Bool.false_and, Bool.false_or, Bool.or_false]
  · have hbyte : 1 + (8 * (a - 1) + r + b) / 8 = a + 2 := by omega
    have hbit : 13 - r + (11 - 1 - b) = 7 - (8 * (a - 1) + r + b) % 8 := by omega
    rw [hbyte, ← hbit]
    simp (disch := omega) only [decide_eq_true, Bool.true_and, Bool.not_true, Bool.and_false, Bool.false_and,
      Bool.false_or]

/-- R267: channel n of a frame is the eleven wire data bits from 11 (n - 1) on, the first in time lowest. -/
theorem getLsbD_channelsOf (fb : Vector Byte 25) {n b : Nat} (h1 : 1 ≤ n) (h2 : n ≤ 16) (hb : b < 11) :
    (chAt (channelsOf fb) n).getLsbD b = wireBit fb (11 * (n - 1) + b) := by
  have two := fun (a r : Nat) (ha : 1 ≤ a) (hr : r ≤ 5) => getLsbD_rev_window2 fb ha hr hb
  have three := fun (a r : Nat) (ha : 1 ≤ a) (hr : 6 ≤ r) (hr' : r ≤ 7) => getLsbD_rev_window3 fb ha hr hr' hb
  interval_cases n
  · exact two 1 0 (by decide) (by decide)
  · exact two 2 3 (by decide) (by decide)
  · exact three 3 6 (by decide) (by decide) (by decide)
  · exact two 5 1 (by decide) (by decide)
  · exact two 6 4 (by decide) (by decide)
  · exact three 7 7 (by decide) (by decide) (by decide)
  · exact two 9 2 (by decide) (by decide)
  · exact two 10 5 (by decide) (by decide)
  · exact two 12 0 (by decide) (by decide)
  · exact two 13 3 (by decide) (by decide)
  · exact three 14 6 (by decide) (by decide) (by decide)
  · exact two 16 1 (by decide) (by decide)
  · exact two 17 4 (by decide) (by decide)
  · exact three 18 7 (by decide) (by decide) (by decide)
  · exact two 20 2 (by decide) (by decide)
  · exact two 21 5 (by decide) (by decide)

/-- R271: what DEC.OK leaves of the decoder state is what the frame says. -/
theorem decodedBy_decodedOf (fb : Vector Byte 25) (d : Decoded) : DecodedBy fb d (decodedOf fb d) :=
  ⟨fun _ h1 h2 _ hb => getLsbD_channelsOf fb h1 h2 hb, rfl, rfl, rfl, rfl, rfl, rfl⟩

-- ---------------------------------------------------------------- the FDU and DECODE

/-- R271: the FDU on a valid frame whose counters have room. -/
theorem fdu_of_valid {s : State} (hv : ValidFrame s.fb) (hg : countsLeft s.dec.good 1)
    (hl : (fbAt s.fb 23).getLsbD 5 = true → countsLeft s.dec.lost 1) :
    fdu s = .next { s with dec := decodedOf s.fb s.dec } := by
  have hvalid := frameValid_iff.2 hv
  rw [fdu, if_pos hvalid]
  exact execDecOk_eq_next.2 ⟨hvalid, hg, hl, rfl⟩

/-- R243: the FDU on an error frame counts it. -/
theorem fdu_of_not_valid {s : State} (hv : ¬ValidFrame s.fb) (he : countsLeft s.dec.errors 1) :
    fdu s = .next { s with dec := { s.dec with errors := s.dec.errors + 1 } } := by
  have hinvalid : ¬frameValid s.fb = true := mt frameValid_iff.1 hv
  rw [fdu, if_neg hinvalid]
  exact execDecErr_eq_next.2 ⟨Bool.eq_false_iff.2 hinvalid, he, rfl⟩

/-- R139: DECODE with the right FB_LEN completes where the FDU does. -/
theorem exec_decode_of_fdu {s t : State} (hl : s.cfg.fbLen = 25) (h : fdu s.prologue = .next t) :
    exec .decode s = .next t.epilogue := by
  have hlen : ¬s.prologue.cfg.fbLen.toNat ≠ Config.frameBytes := by
    rw [State.prologue_cfg, hl]
    decide
  exact (if_neg hlen).trans (andThen_of_eq h)

/-- Settles O20: both kinds of frame are the FDU's body between the prologue and the epilogue of the command. -/
theorem decodeCommandDecodesTheBuffer : Obligations.DecodeCommandDecodesTheBuffer := by
  intro s hlen
  constructor
  · intro hv hg hl
    exact ⟨decodedOf s.fb s.dec, decodedBy_decodedOf s.fb s.dec,
      exec_decode_of_fdu hlen (fdu_of_valid (s := s.prologue) hv hg hl)⟩
  · intro hv he
    exact exec_decode_of_fdu hlen (fdu_of_not_valid (s := s.prologue) hv he)

end Sys2Proof.Machine
end

-- ==== the mode detector's walk and MODEDET ====
section
/-! Proofs about the Mode Detector's body (spec/42_mode_detector.md R181 to R187) and the command MODEDET
(spec/40_commands.md R141): over rising records the walk ends, its histogram counts the gaps that R181 retains, and the
result is the class of a most frequent one. -/

namespace Sys2Proof.Machine

-- ---------------------------------------------------------------- the most frequent gap (R183)

theorem mem_mostFrequent {h : Memory Nat} (hwf : h.wf = true) {g : Nat} :
    g ∈ mostFrequent h ↔ h.read g = some (maxCount h) := by
  constructor
  · intro hg
    obtain ⟨e, he, rfl⟩ := List.mem_map.1 hg
    obtain ⟨hmem, hcount⟩ := List.mem_filter.1 he
    rw [Memory.read_of_mem hwf hmem, beq_iff_eq.1 hcount]
  · intro hread
    exact List.mem_map.2 ⟨_, List.mem_filter.2 ⟨Memory.mem_of_read hread, beq_self_eq_true _⟩, rfl⟩

theorem pairwise_mostFrequent {h : Memory Nat} (hwf : h.wf = true) : (mostFrequent h).Pairwise (· ≤ ·) := by
  rw [mostFrequent, List.pairwise_map]
  exact (((Memory.wf_iff h).1 hwf).imp Nat.le_of_lt).filter _

theorem mostFrequent_ne_nil {h : Memory Nat} (hne : h ≠ []) : mostFrequent h ≠ [] := by
  obtain ⟨e, hmem, hcount⟩ := exists_maxCount hne
  refine List.ne_nil_of_mem (a := e.1) (List.mem_map_of_mem ?_)
  simp only [List.mem_filter, hmem, hcount, beq_self_eq_true, and_self]

theorem breakTie_smallest {ties : List Nat} (hne : ties ≠ []) : breakTie .smallest ties = ties.head hne := by
  simp only [breakTie, List.headD_eq_head?_getD, List.head?_eq_some_head hne, Option.getD_some]

theorem breakTie_largest {ties : List Nat} (hne : ties ≠ []) : breakTie .largest ties = ties.getLast hne := by
  simp only [breakTie, List.getLastD_eq_getLast?, List.getLast?_eq_some_getLast hne, Option.getD_some]

/-- R183, U14: whatever the tie rule, it chooses one of the tied values. -/
theorem breakTie_mem (t : Config.ModeTie) {ties : List Nat} (hne : ties ≠ []) : breakTie t ties ∈ ties := by
  cases t with
  | smallest => exact breakTie_smallest hne ▸ List.head_mem hne
  | largest => exact breakTie_largest hne ▸ List.getLast_mem hne
  | other =>
    have hlt : Config.otherTie ties % ties.length < ties.length := Nat.mod_lt _ (List.length_pos_iff.2 hne)
    simp only [breakTie, List.getElem?_eq_getElem hlt, Option.getD_some, List.getElem_mem]

theorem chosenGap_of_ne_nil {h : Memory Nat} (hne : h ≠ []) (t : Config.ModeTie) :
    chosenGap t h = breakTie t (mostFrequent h) := by
  rw [chosenGap, if_neg (by simpa using hne)]

/-- R183: G is a gap that no other outnumbers, and of several such the one that MODE_TIE says. -/
theorem chosenGap_spec {h : Memory Nat} (hwf : h.wf = true) (hne : h ≠ []) (t : Config.ModeTie) :
    ∃ c, h.read (chosenGap t h) = some c ∧ ∀ x c', h.read x = some c' → c' ≤ c ∧
      (c' = c → t = .smallest → chosenGap t h ≤ x) ∧ (c' = c → t = .largest → x ≤ chosenGap t h) := by
  have hties := mostFrequent_ne_nil hne
  have hsorted := pairwise_mostFrequent hwf
  rw [chosenGap_of_ne_nil hne]
  refine ⟨maxCount h, (mem_mostFrequent hwf).1 (breakTie_mem t hties), fun x c' hx => ⟨?_, ?_, ?_⟩⟩
  · exact le_maxCount (Memory.mem_of_read hx)
  · rintro rfl rfl
    rw [breakTie_smallest hties]
    exact hsorted.rel_head ((mem_mostFrequent hwf).2 hx)
  · rintro rfl rfl
    rw [breakTie_largest hties]
    exact hsorted.rel_getLast ((mem_mostFrequent hwf).2 hx)

-- ---------------------------------------------------------------- the walk (R187)

/-- The records a .. e - 1 of IN have strictly rising timestamps. -/
def RisingInput (s : State) (a e : Nat) : Prop :=
  ∀ k, a ≤ k → k + 1 < e → (s.inAt k).ts.toNat < (s.inAt (k + 1)).ts.toNat

/-- The ticks from record k of IN to the next one. -/
def gapAt (s : State) (k : Nat) : Nat := (s.inAt (k + 1)).ts.toNat - (s.inAt k).ts.toNat

/-- H after the first `m` pairs of a range that begins at record `a` (R181). -/
def histogram (s : State) (a : Nat) : Nat → Memory Nat
  | 0 => []
  | m + 1 => tally s.cfg.sampleRate.toNat (gapAt s (a + m)) (histogram s a m)

/-- The MDU over the range a .. e - 1 of `s`, after its first `m` pairs. -/
def mduAt (s : State) (a e m : Nat) : State :=
  { s with mdu := { q := a + m + 1, stop := e, hist := histogram s a m, m := 0, g := false }, act := .mdu }

/-- The MDU of `s` that has returned from the range a .. e - 1 (R184). -/
def mduEnd (s : State) (a e : Nat) : State :=
  { s with
    act := .mduDone
    mdu :=
      { q := a + (e - (a + 1)) + 1
        stop := e
        hist := histogram s a (e - (a + 1))
        m := classify s.cfg.sampleRate.toNat (chosenGap s.par.modeTie (histogram s a (e - (a + 1))))
        g := !(histogram s a (e - (a + 1))).isEmpty } }

theorem histogram_wf (s : State) (a m : Nat) : (histogram s a m).wf = true := by
  induction m with
  | zero => rfl
  | succ m ih => exact tally_wf ih _ _

/-- The histogram depends on the IN records and the sample rate alone. -/
theorem histogram_congr {s t : State} (hin : ∀ k, s.inAt k = t.inAt k) (hrate : s.cfg.sampleRate = t.cfg.sampleRate)
    (a m : Nat) : histogram s a m = histogram t a m := by
  induction m with
  | zero => rfl
  | succ m ih => simp only [histogram, gapAt, hin, hrate, ih]

theorem execMdGap_mduAt {s : State} {a e m : Nat} (hrise : RisingInput s a e) (hm : a + m + 1 < e) :
    execMdGap (mduAt s a e m) = .next (mduAt s a e (m + 1)) := by
  have hgap : pairGap (mduAt s a e m) = some (gapAt s (a + m)) :=
    pairGap_of_lt (s := mduAt s a e m) (Nat.le_add_left 1 _) hm (hrise (a + m) (Nat.le_add_right a m) hm)
  refine execMdGap_eq_next.2 ⟨selMdGap_iff.2 ⟨rfl, _, hgap⟩, ?_⟩
  rw [hgap]
  rfl

theorem mduLoop_mduAt {s : State} {a e : Nat} (hrise : RisingInput s a e) (n m : Nat) (hm : m + n ≤ e - (a + 1)) :
    mduLoop n (mduAt s a e m) = .next (mduAt s a e (m + n)) := by
  induction n generalizing m with
  | zero => rfl
  | succ n ih =>
    rw [mduLoop, andThen_of_eq (execMdGap_mduAt hrise (by omega)), ih (m + 1) (by omega), Nat.add_right_comm,
      Nat.add_assoc]

/-- R187: over rising records the MDU returns. -/
theorem mduBody_of_rising {s : State} {a e : Nat} (hrise : RisingInput s a e) :
    mduBody a e s = .next (mduEnd s a e) := by
  have hloop : mduLoop (e - (a + 1)) (mduBegin a e s) = .next (mduAt s a e (e - (a + 1))) := by
    have hwalk := mduLoop_mduAt hrise (e - (a + 1)) 0 (by omega)
    rwa [Nat.zero_add] at hwalk
  have hsel : selMdClassify (mduAt s a e (e - (a + 1))) = true :=
    selMdClassify_iff.2 ⟨rfl, by simp only [mduAt]; omega⟩
  rw [mduBody, andThen_of_eq hloop]
  exact execMdClassify_eq_next.2 ⟨hsel, rfl⟩

-- ---------------------------------------------------------------- what the histogram counts

theorem retainedGaps_empty (s : State) (a : Nat) : retainedGaps s a (a + 1) = [] := by
  simp [retainedGaps]

/-- One more record in the range is one more gap, retained where it exceeds 3 ms (R181). -/
theorem retainedGaps_succ {s : State} {a m : Nat} (hrise : RisingInput s a (a + 1 + m + 1)) :
    retainedGaps s a (a + 1 + m + 1) = retainedGaps s a (a + 1 + m) ++
      if 3 * s.cfg.sampleRate.toNat < 1000 * gapAt s (a + m) then [gapAt s (a + m)] else [] := by
  have hlong : a + 1 + m + 1 - (a + 1) = m + 1 := by omega
  have hshort : a + 1 + m - (a + 1) = m := by omega
  have hticks : ticks (s.inAt (a + m)).ts (s.inAt (a + m + 1)).ts = some (gapAt s (a + m)) :=
    ticks_of_lt (hrise (a + m) (by omega) (by omega))
  rw [retainedGaps, retainedGaps, hlong, hshort, List.range_succ, List.filterMap_append]
  congr 1
  by_cases hretain : 3 * s.cfg.sampleRate.toNat < 1000 * gapAt s (a + m)
  · rw [List.filterMap_cons_some (b := gapAt s (a + m)) (by simp [hticks, hretain]), if_pos hretain,
      List.filterMap_nil]
  · rw [List.filterMap_cons_none (by simp [hticks, Nat.le_of_not_lt hretain]), if_neg hretain, List.filterMap_nil]

/-- R181: the histogram holds the count of each retained gap, and nothing else. -/
theorem histogram_read {s : State} {a m x : Nat} (hrise : RisingInput s a (a + 1 + m)) :
    (histogram s a m).read x =
      if x ∈ retainedGaps s a (a + 1 + m) then some ((retainedGaps s a (a + 1 + m)).count x) else none := by
  induction m with
  | zero => simp [retainedGaps_empty, histogram]
  | succ m ih =>
    have hshort := ih fun k h1 h2 => hrise k h1 (by omega)
    rw [histogram, tally_read, hshort, ← Nat.add_assoc, retainedGaps_succ hrise]
    by_cases hlong : 3 * s.cfg.sampleRate.toNat < 1000 * gapAt s (a + m)
    · obtain rfl | hx := eq_or_ne x (gapAt s (a + m))
      · by_cases hmem : gapAt s (a + m) ∈ retainedGaps s a (a + 1 + m)
        · simp [hlong, hshort, hmem]
        · simp [hlong, hshort, hmem, List.count_eq_zero_of_not_mem hmem]
      · simp [hlong, hx, Ne.symm hx]
    · simp [hlong]

/-- The histogram of a whole range. -/
theorem histogram_range_read {s : State} {a e : Nat} (hrise : RisingInput s a e) (x : Nat) :
    (histogram s a (e - (a + 1))).read x =
      if x ∈ retainedGaps s a e then some ((retainedGaps s a e).count x) else none := by
  by_cases he : a + 1 ≤ e
  · obtain ⟨m, rfl⟩ := Nat.exists_eq_add_of_le he
    rw [Nat.add_sub_cancel_left]
    exact histogram_read hrise
  · have hnone : e - (a + 1) = 0 := by omega
    simp [retainedGaps, hnone, histogram]

theorem histogram_eq_nil_iff {s : State} {a e : Nat} (hrise : RisingInput s a e) :
    histogram s a (e - (a + 1)) = [] ↔ retainedGaps s a e = [] := by
  rw [Memory.eq_nil_iff, List.eq_nil_iff_forall_not_mem]
  simp only [histogram_range_read hrise, ite_eq_right_iff, reduceCtorEq, imp_false]

/-- R183 to R185: the result of a range is the class of a retained gap that no other outnumbers, or HIGH_SPEED. -/
theorem mduEnd_classifies {s : State} {a e : Nat} (hrate : 0 < s.cfg.sampleRate.toNat) (hrise : RisingInput s a e) :
    (retainedGaps s a e = [] → (mduEnd s a e).mdu.m = 2 ∧ (mduEnd s a e).mdu.g = false) ∧
    (retainedGaps s a e ≠ [] → (mduEnd s a e).mdu.g = true ∧ ∃ g ∈ retainedGaps s a e,
      (mduEnd s a e).mdu.m = (if 2000 * g > 21 * s.cfg.sampleRate.toNat then 1 else 2) ∧
      ∀ x ∈ retainedGaps s a e, (retainedGaps s a e).count x ≤ (retainedGaps s a e).count g ∧
        ((retainedGaps s a e).count x = (retainedGaps s a e).count g → s.par.modeTie = .smallest → g ≤ x) ∧
        ((retainedGaps s a e).count x = (retainedGaps s a e).count g → s.par.modeTie = .largest → x ≤ g)) := by
  have hm : (mduEnd s a e).mdu.m =
      classify s.cfg.sampleRate.toNat (chosenGap s.par.modeTie (histogram s a (e - (a + 1)))) := rfl
  have hg : (mduEnd s a e).mdu.g = !(histogram s a (e - (a + 1))).isEmpty := rfl
  rw [hm, hg, classify_eq hrate]
  constructor
  · intro hnone
    rw [(histogram_eq_nil_iff hrise).2 hnone]
    exact ⟨if_neg (by simp [chosenGap]), rfl⟩
  · intro hsome
    have hne := mt (histogram_eq_nil_iff hrise).1 hsome
    obtain ⟨c, hread, hmost⟩ := chosenGap_spec (histogram_wf s a _) hne s.par.modeTie
    rw [histogram_range_read hrise] at hread
    split at hread
    case isFalse => cases hread
    case isTrue hmem =>
      cases hread
      refine ⟨by simpa using hne, _, hmem, rfl, fun x hx => hmost x _ ?_⟩
      rw [histogram_range_read hrise, if_pos hx]

-- ---------------------------------------------------------------- the command

/-- The host's obligations on IN are what the commands check (R336, R339). -/
theorem withInput_of_ready {s : State} {a e : Nat} (h : InputReady s a e) (body : Out) :
    withInput s a e body = body := by
  obtain ⟨hfits, hstamp, hpair⟩ := h
  have hall : (List.range s.cfg.inLen.toNat).all (inputOkAt s a e) = true := by
    refine List.all_eq_true.2 fun k hk => inputOkAt_iff.2 ⟨fun r hr => ?_, hpair k (List.mem_range.1 hk)⟩
    simpa [hr] using hstamp k (List.mem_range.1 hk)
  simp only [withInput, hfits, hall, Bool.not_true, Bool.false_eq_true, if_false]

/-- Conversely, the checks that a command made of IN are the host's obligations. -/
theorem inputReady_of_checks {s : State} {a e : Nat} (hfits : fits s.par.inCap s.cfg.inLen.toNat = true)
    (hall : ∀ k, k < s.cfg.inLen.toNat → inputOkAt s a e k = true) : InputReady s a e := by
  refine ⟨hfits, fun k hk => ?_, fun k hk => (inputOkAt_iff.1 (hall k hk)).2⟩
  have hstamp := (inputOkAt_iff.1 (hall k hk)).1
  cases hr : s.inMem.read k with
  | none => rfl
  | some r => simpa using hstamp r hr

theorem InputReady.rising {s : State} {a e : Nat} (h : InputReady s a e) (he : e ≤ s.cfg.inLen.toNat) :
    RisingInput s a e :=
  fun k h1 h2 => (h.2.2 k (by omega) (by omega) (.inl ⟨h1, h2⟩)).1

/-- R141: MODEDET over a legal range of a legal capture runs the MDU and stores its result. -/
theorem exec_modedet_of_ready {s : State} (hrate : 200000 ≤ s.cfg.sampleRate.toNat)
    (hrange : s.cfg.rangeStart.toNat ≤ s.cfg.rangeEnd.toNat) (hend : s.cfg.rangeEnd.toNat ≤ s.cfg.inLen.toNat)
    (hin : InputReady s s.cfg.rangeStart.toNat s.cfg.rangeEnd.toNat) :
    exec .modedet s =
      .next (finish (storeMode (mduEnd (started false s) s.cfg.rangeStart.toNat s.cfg.rangeEnd.toNat))) := by
  have hmdu := mduBody_of_rising (s := started false s) (hin.rising hend)
  calc exec .modedet s
      = withInput s.prologue s.cfg.rangeStart.toNat s.cfg.rangeEnd.toNat
          (andThen (mduBody s.cfg.rangeStart.toNat s.cfg.rangeEnd.toNat (started false s)) fun s =>
            .next (finish (storeMode s))) := 
        (precheck_of_rate (s := s.prologue) hrate _).trans (if_neg (not_not.2 ⟨hrange, hend⟩))
    _ = _ := by rw [withInput_of_ready (s := s.prologue) hin, hmdu, andThen_next]

/-- Settles O39: the command is the MDU over the range, whose histogram counts the retained gaps. -/
theorem modeDetectionClassifiesTheRange : Obligations.ModeDetectionClassifiesTheRange := by
  intro s hrate hrange hend hin gaps
  obtain ⟨hnone, hsome⟩ := mduEnd_classifies (s := started false s)
    (Nat.lt_of_lt_of_le (by decide) hrate) (hin.rising hend)
  exact ⟨_, exec_modedet_of_ready hrate hrange hend hin, rfl, hnone, hsome⟩

end Sys2Proof.Machine
end

-- ==== what the RSU and the FSU leave aside ====
section
/-! Proofs that the Bit Resampler's and the Frame Synchronizer's bodies neither read nor write STATUS, CONFIG.MODE,
MODE_RESULT, the MDU's registers and the place of the walk in RUN (spec/41_resampler.md R150, spec/43_framer.md R200):
from another value of these they make the same state, but for these. -/

namespace Sys2Proof.Machine

/-- The registers that the RSU and the FSU leave aside. -/
structure Aside where
  status : Status
  mode : BitVec 2
  modeEff : BitVec 2
  modeFromGaps : Bool
  mdu : Mdu
  inRun : Bool

/-- `s` with other values of the registers that the RSU and the FSU leave aside. -/
def State.withAside (s : State) (x : Aside) : State :=
  { s with
    status := x.status
    cfg := { s.cfg with mode := x.mode }
    modeEff := x.modeEff
    modeFromGaps := x.modeFromGaps
    mdu := x.mdu
    inRun := x.inRun }

variable {x : Aside} {s t : State}

-- ---------------------------------------------------------------- the Bit Resampler

/-- An operation of the RSU that answers a next state is the one that the RSU's state selects. -/
theorem selectOp_of_rsuExec (h : execRsScan s = .next t ∨ execRsStart s = .next t ∨ execRsEdge s = .next t ∨
    execRsFill s = .next t ∨ execRsClip s = .next t ∨ execRsTrail s = .next t) :
    (s.act = .scan ∨ s.act = .inFrame) ∧ ∃ i, selectOp s = some i ∧ exec i s = .next t := by
  rcases h with h | h | h | h | h | h
  · have hsel := (execRsScan_eq_next.1 h).1
    exact ⟨.inl (selRsScan_iff.1 hsel).1, _, selectOp_of_selRsScan hsel, h⟩
  · have hsel := (execRsStart_eq_next.1 h).1
    exact ⟨.inl (selRsStart_iff.1 hsel).1, _, selectOp_of_selRsStart hsel, h⟩
  · have hsel := (execRsEdge_eq_next.1 h).1
    exact ⟨.inr (frameOpen_iff.1 (selRsEdge_iff.1 hsel).1).1, _, selectOp_of_selRsEdge hsel, h⟩
  · have hsel := (execRsFill_eq_next.1 h).1
    exact ⟨.inr (frameOpen_iff.1 (selRsFill_iff.1 hsel).1).1, _, selectOp_of_selRsFill hsel, h⟩
  · have hsel := (execRsClip_eq_next.1 h).1
    exact ⟨.inr (frameOpen_iff.1 (selRsClip_iff.1 hsel).1).1, _, selectOp_of_selRsClip hsel, h⟩
  · have hsel := (execRsTrail_eq_next.1 h).1
    exact ⟨.inr (selRsTrail_iff.1 hsel).1, _, selectOp_of_selRsTrail hsel, h⟩

/-- A step of the RSU's walk is any of its six operations that answers a next state. -/
theorem rsuStep_of_exec (h : execRsScan s = .next t ∨ execRsStart s = .next t ∨ execRsEdge s = .next t ∨
    execRsFill s = .next t ∨ execRsClip s = .next t ∨ execRsTrail s = .next t) : rsuStep s = .next t := by
  obtain ⟨hact, i, hi, hexec⟩ := selectOp_of_rsuExec h
  exact (rsuStep_of_selectOp hact hi).trans hexec

theorem appendBits_withAside {b : Bool} {n m : Nat} (h : appendBits b n m s = .next t) :
    appendBits b n m (s.withAside x) = .next (t.withAside x) := by
  induction n generalizing m s with
  | zero => cases h; rfl
  | succ n ih =>
    obtain ⟨u, hu, h⟩ := andThen_eq_next.1 h
    obtain ⟨hfits, rfl⟩ := appendRs_eq_next.1 hu
    exact andThen_eq_next.2 ⟨_, appendRs_eq_next.2 ⟨hfits, rfl⟩, ih h⟩

theorem emitBits_withAside {b : Bool} {n : Nat} (h : emitBits b n s = .next t) :
    emitBits b n (s.withAside x) = .next (t.withAside x) := by
  obtain ⟨u, hu, h⟩ := andThen_eq_next.1 h
  cases h
  exact andThen_eq_next.2 ⟨_, appendBits_withAside hu, rfl⟩

theorem execRsScan_withAside (h : execRsScan s = .next t) : execRsScan (s.withAside x) = .next (t.withAside x) := by
  obtain ⟨hsel, rfl⟩ := execRsScan_eq_next.1 h
  exact execRsScan_eq_next.2 ⟨hsel, rfl⟩

theorem execRsStart_withAside (h : execRsStart s = .next t) : execRsStart (s.withAside x) = .next (t.withAside x) := by
  obtain ⟨hsel, rfl⟩ := execRsStart_eq_next.1 h
  exact execRsStart_eq_next.2 ⟨hsel, rfl⟩

theorem execRsEdge_withAside (h : execRsEdge s = .next t) : execRsEdge (s.withAside x) = .next (t.withAside x) := by
  obtain ⟨hsel, u, hu, rfl⟩ := execRsEdge_eq_next.1 h
  exact execRsEdge_eq_next.2 ⟨hsel, u.withAside x, emitBits_withAside hu, rfl⟩

theorem execRsFill_withAside (h : execRsFill s = .next t) : execRsFill (s.withAside x) = .next (t.withAside x) := by
  obtain ⟨hsel, hemit⟩ := execRsFill_eq_next.1 h
  exact execRsFill_eq_next.2 ⟨hsel, emitBits_withAside hemit⟩

theorem execRsClip_withAside (h : execRsClip s = .next t) : execRsClip (s.withAside x) = .next (t.withAside x) := by
  obtain ⟨hsel, hemit⟩ := execRsClip_eq_next.1 h
  exact execRsClip_eq_next.2 ⟨hsel, emitBits_withAside (x := x) hemit⟩

theorem execRsTrail_withAside (h : execRsTrail s = .next t) : execRsTrail (s.withAside x) = .next (t.withAside x) := by
  obtain ⟨hsel, hfits, rfl⟩ := execRsTrail_eq_next.1 h
  exact execRsTrail_eq_next.2 ⟨hsel, hfits, rfl⟩

theorem rsuStep_withAside (h : rsuStep s = .next t) : rsuStep (s.withAside x) = .next (t.withAside x) := by
  refine rsuStep_of_exec ?_
  rcases rsuStep_eq_next h with h | h | h | h | h | h
  · exact .inl (execRsScan_withAside h)
  · exact .inr (.inl (execRsStart_withAside h))
  · exact .inr (.inr (.inl (execRsEdge_withAside h)))
  · exact .inr (.inr (.inr (.inl (execRsFill_withAside h))))
  · exact .inr (.inr (.inr (.inr (.inl (execRsClip_withAside h)))))
  · exact .inr (.inr (.inr (.inr (.inr (execRsTrail_withAside h)))))

theorem rsuLoop_withAside {n : Nat} (h : rsuLoop n s = .next t) :
    rsuLoop n (s.withAside x) = .next (t.withAside x) := by
  induction n generalizing s with
  | zero => cases h; rfl
  | succ n ih =>
    have hdone : rsuDone (s.withAside x) = rsuDone s := rfl
    rw [rsuLoop] at h ⊢
    rw [hdone]
    split at h
    case isTrue hd => cases h; exact if_pos hd
    case isFalse hd =>
      obtain ⟨u, hstep, h⟩ := andThen_eq_next.1 h
      rw [if_neg hd, andThen_of_eq (rsuStep_withAside hstep)]
      exact ih h

/-- R150: the RSU's body makes the same of every value of the registers it leaves aside. -/
theorem rsuBody_withAside (h : rsuBody s = .next t) : rsuBody (s.withAside x) = .next (t.withAside x) :=
  rsuLoop_withAside (s := rsuBegin s) h

-- ---------------------------------------------------------------- the Frame Synchronizer

/-- An operation of the FSU's walk that answers a next state is the one that the FSU's state selects. -/
theorem selectOp_of_fsuExec (h : execFrShift s = .next t ∨ execFrWord s = .next t ∨ execFrFrame s = .next t ∨
    execFrDesync s = .next t ∨ execFrTail s = .next t) :
    s.act = .fsuWalk ∧ ∃ i, selectOp s = some i ∧ exec i s = .next t := by
  rcases h with h | h | h | h | h
  · have hsel := (execFrShift_eq_next.1 h).1
    exact ⟨(inSync_iff.1 (selFrShift_iff.1 hsel).1).1, _, selectOp_of_selFrShift hsel, h⟩
  · have hsel := (execFrWord_eq_next.1 h).1
    exact ⟨(inSync_iff.1 (selFrWord_iff.1 hsel).1).1, _, selectOp_of_selFrWord hsel, h⟩
  · have hsel := (execFrFrame_eq_next.1 h).1
    exact ⟨(inSync_iff.1 (selFrFrame_iff.1 hsel).1).1, _, selectOp_of_selFrFrame hsel, h⟩
  · have hsel := (execFrDesync_eq_next.1 h).1
    exact ⟨(selFrDesync_iff.1 hsel).1, _, selectOp_of_selFrDesync hsel, h⟩
  · have hsel := (execFrTail_eq_next.1 h).1
    exact ⟨(selFrTail_iff.1 hsel).1, _, selectOp_of_selFrTail hsel, h⟩

/-- A step of the FSU's walk is any of its five operations that answers a next state. -/
theorem fsuStep_of_exec (h : execFrShift s = .next t ∨ execFrWord s = .next t ∨ execFrFrame s = .next t ∨
    execFrDesync s = .next t ∨ execFrTail s = .next t) : fsuStep s = .next t := by
  obtain ⟨hact, i, hi, hexec⟩ := selectOp_of_fsuExec h
  exact (fsuStep_of_selectOp hact hi).trans hexec

theorem fdu_withAside (h : fdu s = .next t) : fdu (s.withAside x) = .next (t.withAside x) := by
  simp only [fdu] at h
  split at h
  case isTrue hv =>
    obtain ⟨hvalid, hg, hl, rfl⟩ := execDecOk_eq_next.1 h
    exact (if_pos hv).trans (execDecOk_eq_next.2 ⟨hvalid, hg, hl, rfl⟩)
  case isFalse hv =>
    obtain ⟨hinvalid, he, rfl⟩ := execDecErr_eq_next.1 h
    exact (if_neg hv).trans (execDecErr_eq_next.2 ⟨hinvalid, he, rfl⟩)

theorem closeFrame_withAside (h : closeFrame s = .next t) : closeFrame (s.withAside x) = .next (t.withAside x) := by
  obtain ⟨hfits, rfl⟩ := closeFrame_eq_next.1 h
  exact closeFrame_eq_next.2 ⟨hfits, rfl⟩

theorem execFrLabel_withAside (h : execFrLabel s = .next t) : execFrLabel (s.withAside x) = .next (t.withAside x) := by
  obtain ⟨hsel, hfits, rfl⟩ := execFrLabel_eq_next.1 h
  exact execFrLabel_eq_next.2 ⟨hsel, hfits, rfl⟩

theorem execFrShift_withAside (h : execFrShift s = .next t) : execFrShift (s.withAside x) = .next (t.withAside x) := by
  obtain ⟨hsel, rfl⟩ := execFrShift_eq_next.1 h
  exact execFrShift_eq_next.2 ⟨hsel, rfl⟩

theorem execFrWord_withAside (h : execFrWord s = .next t) : execFrWord (s.withAside x) = .next (t.withAside x) := by
  obtain ⟨hsel, hfits, rfl⟩ := execFrWord_eq_next.1 h
  exact execFrWord_eq_next.2 ⟨hsel, hfits, rfl⟩

theorem execFrFrame_withAside (h : execFrFrame s = .next t) : execFrFrame (s.withAside x) = .next (t.withAside x) := by
  obtain ⟨hsel, hfits, hcount, d, c, hdecode, hclose, rfl⟩ := execFrFrame_eq_next.1 h
  exact execFrFrame_eq_next.2 ⟨hsel, hfits, hcount, d.withAside x, c.withAside x, fdu_withAside (x := x) hdecode,
    closeFrame_withAside hclose, rfl⟩

theorem execFrDesync_withAside (h : execFrDesync s = .next t) :
    execFrDesync (s.withAside x) = .next (t.withAside x) := by
  obtain ⟨hsel, rfl⟩ := execFrDesync_eq_next.1 h
  exact execFrDesync_eq_next.2 ⟨hsel, rfl⟩

theorem execFrTail_withAside (h : execFrTail s = .next t) : execFrTail (s.withAside x) = .next (t.withAside x) := by
  obtain ⟨hsel, rfl⟩ := execFrTail_eq_next.1 h
  exact execFrTail_eq_next.2 ⟨hsel, rfl⟩

theorem fsuStep_withAside (h : fsuStep s = .next t) : fsuStep (s.withAside x) = .next (t.withAside x) := by
  refine fsuStep_of_exec ?_
  rcases fsuStep_eq_next h with h | h | h | h | h
  · exact .inl (execFrShift_withAside h)
  · exact .inr (.inl (execFrWord_withAside h))
  · exact .inr (.inr (.inl (execFrFrame_withAside h)))
  · exact .inr (.inr (.inr (.inl (execFrDesync_withAside h))))
  · exact .inr (.inr (.inr (.inr (execFrTail_withAside h))))

theorem fsuLoop_withAside {n : Nat} (h : fsuLoop n s = .next t) :
    fsuLoop n (s.withAside x) = .next (t.withAside x) := by
  induction n generalizing s with
  | zero => cases h; rfl
  | succ n ih =>
    obtain ⟨u, hstep, h⟩ := andThen_eq_next.1 h
    exact andThen_eq_next.2 ⟨_, fsuStep_withAside hstep, ih h⟩

/-- R200: the FSU's body makes the same of every value of the registers it leaves aside. -/
theorem fsuBody_withAside (h : fsuBody s = .next t) : fsuBody (s.withAside x) = .next (t.withAside x) := by
  obtain ⟨u, hlabel, hwalk⟩ := fsuBody_eq_next.1 h
  exact fsuBody_eq_next.2 ⟨u.withAside x, execFrLabel_withAside (s := fsuBegin s) hlabel,
    fsuLoop_withAside (x := x) hwalk⟩

end Sys2Proof.Machine
end

-- ==== the bit resampler's walk and RESAMPLE ====
section
/-! Proofs about the Bit Resampler's body (spec/41_resampler.md R153 to R165) and the command RESAMPLE
(spec/40_commands.md R137): from a capture with rising timestamps every step of the walk exists where RS has room, the
walk ends, and its frames are 301 rising records each. -/

namespace Sys2Proof.Machine

-- ---------------------------------------------------------------- what the walk keeps

/-- What the RSU needs of the capture: a bit period, and rising timestamps that leave room for a frame below 2^64. -/
structure RisingCapture (s : State) : Prop where
  spb_pos : 0 < spb s
  rising : RisingInput s 0 s.cfg.inLen.toNat
  below : ∀ k, 1 ≤ k → k < s.cfg.inLen.toNat → (s.inAt k).ts.toNat < 2 ^ 63

/-- The RS records so far have rising timestamps, the last one below `b`. -/
structure RecordsBelow (s : State) (b : Nat) : Prop where
  rising : ∀ k, k + 1 < s.rsLen.toNat → (s.rsAt k).ts.toNat < (s.rsAt (k + 1)).ts.toNat
  last : ∀ k, k + 1 = s.rsLen.toNat → (s.rsAt k).ts.toNat < b

/-- The RSU is scanning (R153): the last record lies within a frame of the last sample seen, so below the start of the
next frame (R155). -/
structure Scanning (s : State) : Prop where
  act : s.act = .scan
  j_pos : 1 ≤ s.rsu.j.toNat
  records : RecordsBelow s ((s.inAt (s.rsu.j.toNat - 1)).ts.toNat + frameGap s + 1)

/-- The RSU is in a frame (R153): the next bit's timestamp is above every record so far (R157). -/
structure Framing (s : State) : Prop where
  act : s.act = .inFrame
  k_pos : 1 ≤ s.rsu.k.toNat
  k_lt : s.rsu.k.toNat < s.cfg.inLen.toNat
  count_le : s.rsu.count ≤ 300
  t0_le : s.rsu.t0.toNat ≤ (s.inAt s.rsu.k.toNat).ts.toNat
  records : RecordsBelow s (s.rsu.t0.toNat + s.rsu.count * spb s)

/-- The RSU in its walk over a capture with rising timestamps. -/
structure RsuWalk (s : State) : Prop where
  capture : RisingCapture s
  place : Scanning s ∨ Framing s

/-- The samples that the walk is past: up to j while scanning, k and what is before it in a frame. -/
def rsuPlace (s : State) : Nat := if s.act = .inFrame then s.rsu.k.toNat + 1 else s.rsu.j.toNat

/-- RS_LEN once the frame in progress is complete: 301 records for each frame (R164). -/
def rsuOwed (s : State) : Nat := if s.act = .inFrame then s.rsLen.toNat + (301 - s.rsu.count) else s.rsLen.toNat

/-- A bound on the micro-operations that are left: four for each sample ahead, and in a frame RS.TRAIL, before which a
residual is due where COUNT is below 300. -/
def rsuEffort (s : State) : Nat :=
  if s.act = .inFrame then 4 * (s.cfg.inLen.toNat - s.rsu.k.toNat - 1) + (if s.rsu.count < 300 then 2 else 1)
  else 4 * (s.cfg.inLen.toNat - s.rsu.j.toNat)

/-- 1 where the next micro-operation is RS.START, which detects a frame (R164). -/
def startsFrame (s : State) : Nat := if selRsStart s then 1 else 0

/-- What one step of the walk does to the walk. -/
structure RsuStepped (s t : State) : Prop where
  place : Scanning t ∨ Framing t
  owed : rsuOwed t = rsuOwed s + 301 * startsFrame s
  effort : rsuEffort t < rsuEffort s
  advance : rsuPlace s + startsFrame s ≤ rsuPlace t
  inside : rsuPlace t ≤ s.cfg.inLen.toNat

theorem frameGap_eq (s : State) : frameGap s = 300 * spb s := rfl

theorem spb_lt (s : State) : spb s < 2 ^ 32 := by
  have hrate := s.cfg.sampleRate.isLt
  simp only [spb]
  omega

theorem spb_pos_of_rate {s : State} (h : 200000 ≤ s.cfg.sampleRate.toNat) : 0 < spb s := by
  simp only [spb]
  omega

theorem startsFrame_of_start {s : State} (h : selRsStart s = true) : startsFrame s = 1 := if_pos h

theorem startsFrame_of_not_start {s : State} (h : ¬selRsStart s = true) : startsFrame s = 0 := if_neg h

theorem startsFrame_of_inFrame {s : State} (h : s.act = .inFrame) : startsFrame s = 0 :=
  startsFrame_of_not_start fun hsel => nomatch h.symm.trans (selRsStart_iff.1 hsel).1

/-- A step of the walk leaves the capture and the timing as they are. -/
theorem RisingCapture.step {s t : State} (h : RisingCapture s) (hstep : rsuStep s = .next t) : RisingCapture t := by
  rw [rsuStep_only hstep]
  exact ⟨h.spb_pos, h.rising, h.below⟩

-- ---------------------------------------------------------------- appended records

/-- Records at multiples of a bit period go on rising from below the first of them. -/
theorem RecordsBelow.append {s t : State} {c p m n b : Nat} (h : RecordsBelow s (c + m * p)) (hp : 0 < p)
    (hlen : t.rsLen.toNat = s.rsLen.toNat + n) (hold : ∀ a, a < s.rsLen.toNat → t.rsAt a = s.rsAt a)
    (hnew : ∀ q, q < n → (t.rsAt (s.rsLen.toNat + q)).ts.toNat = c + (m + q) * p)
    (hbound : c + m * p ≤ b) (hbounds : ∀ q, q < n → c + (m + q) * p < b) : RecordsBelow t b := by
  constructor
  · intro k hk
    rcases Nat.lt_trichotomy (k + 1) s.rsLen.toNat with hlt | heq | hgt
    · rw [hold k (by omega), hold (k + 1) hlt]
      exact h.rising k hlt
    · have hnext := hnew 0 (by omega)
      rw [Nat.add_zero, Nat.add_zero, ← heq] at hnext
      rw [hold k (by omega), hnext]
      exact h.last k heq
    · obtain ⟨q, rfl⟩ := Nat.exists_eq_add_of_le (Nat.le_of_lt_succ hgt)
      rw [Nat.add_assoc, hnew q (by omega), hnew (q + 1) (by omega), ← Nat.add_assoc m, Nat.succ_mul]
      omega
  · intro k hk
    by_cases hlt : k < s.rsLen.toNat
    · rw [hold k hlt]
      exact (h.last k (by omega)).trans_le hbound
    · obtain ⟨q, rfl⟩ := Nat.exists_eq_add_of_le (Nat.le_of_not_lt hlt)
      rw [hnew q (by omega)]
      exact hbounds q (by omega)

/-- R157: the timestamp of a bit of a frame that starts below 2^63. -/
theorem toNat_bitTime {s : State} {m : Nat} (ht0 : s.rsu.t0.toNat < 2 ^ 63) (hm : m ≤ 300) :
    (bitTime s m).toNat = s.rsu.t0.toNat + m * spb s := by
  have hprod : m * spb s ≤ 300 * spb s := Nat.mul_le_mul_right _ hm
  have hspb := spb_lt s
  rw [bitTime, BitVec.toNat_ofNat, Nat.mod_eq_of_lt (by omega)]

/-- The records of RS after n bits were emitted. -/
theorem rsAt_of_emitBits {b : Bool} {n : Nat} {s t : State} (h : emitBits b n s = .next t) (a : Nat) :
    t.rsAt a = if s.rsLen.toNat ≤ a ∧ a < s.rsLen.toNat + n then
      { bit := b, ts := bitTime s (s.rsu.count + (a - s.rsLen.toNat)) } else s.rsAt a := by
  obtain ⟨-, hread, -, ht⟩ := emitBits_eq_next h
  have hera : t.rsEra = s.rsEra := by rw [ht]
  rw [State.rsAt, hread, hera]
  split <;> rfl

/-- The bits of a frame, up to 300 of them, keep its records rising. -/
theorem RecordsBelow.emitBits {b : Bool} {n : Nat} {s t : State} (h : emitBits b n s = .next t)
    (hp : 0 < spb s) (hn : s.rsu.count + n ≤ 300) (ht0 : s.rsu.t0.toNat < 2 ^ 63)
    (hs : RecordsBelow s (s.rsu.t0.toNat + s.rsu.count * spb s)) :
    RecordsBelow t (s.rsu.t0.toNat + (s.rsu.count + n) * spb s) := by
  refine hs.append hp (emitBits_eq_next h).1 (fun a ha => ?_) (fun q hq => ?_) ?_ fun q hq => ?_
  · rw [rsAt_of_emitBits h, if_neg (by omega)]
  · rw [rsAt_of_emitBits h, if_pos (by omega), Nat.add_sub_cancel_left, toNat_bitTime ht0 (by omega)]
  · exact Nat.add_le_add_left (Nat.mul_le_mul_right _ (by omega)) _
  · exact Nat.add_lt_add_left (Nat.mul_lt_mul_of_pos_right (by omega) hp) _

-- ---------------------------------------------------------------- the steps of the walk

section

variable {s t : State}

theorem RisingCapture.le_next (h : RisingCapture s) {k : Nat} (hk : k + 1 < s.cfg.inLen.toNat) :
    (s.inAt k).ts.toNat ≤ (s.inAt (k + 1)).ts.toNat :=
  (h.rising k (Nat.zero_le k) hk).le

/-- The pair that the RSU tests while scanning (R153). -/
theorem scanGap_eq_some {d : Nat} (h : scanGap s = some d) :
    s.rsu.j.toNat < s.cfg.inLen.toNat ∧
      d = (s.inAt s.rsu.j.toNat).ts.toNat - (s.inAt (s.rsu.j.toNat - 1)).ts.toNat := by
  simp only [scanGap] at h
  split at h
  case isTrue hj => exact ⟨hj.2, (ticks_eq_some.1 h).2⟩
  case isFalse => cases h

/-- The pair that the RSU tests in a frame (R156, R158). -/
theorem lt_of_edgeGap {d : Nat} (h : edgeGap s = some d) : s.rsu.k.toNat + 1 < s.cfg.inLen.toNat := by
  simp only [edgeGap] at h
  split at h
  · assumption
  · cases h

/-- A Word below IN_LEN has a successor. -/
theorem toNat_add_one_of_lt {w v : Word} (h : w.toNat < v.toNat) : (w + 1).toNat = w.toNat + 1 := by
  have hv := v.isLt
  exact toNat_add_one (by omega)

theorem Framing.t0_lt (h : Framing s) (hc : RisingCapture s) : s.rsu.t0.toNat < 2 ^ 63 :=
  h.t0_le.trans_lt (hc.below _ h.k_pos h.k_lt)

theorem Scanning.scan (h : Scanning s) (hc : RisingCapture s) (hexec : execRsScan s = .next t) : RsuStepped s t := by
  obtain ⟨hsel, rfl⟩ := execRsScan_eq_next.1 hexec
  obtain ⟨-, d, hgap, -⟩ := selRsScan_iff.1 hsel
  obtain ⟨hlt, -⟩ := scanGap_eq_some hgap
  have hj := toNat_add_one_of_lt hlt
  have hstart := startsFrame_of_not_start fun hstart => not_selRsScan_of_selRsStart hstart hsel
  have hact := h.act
  have hpos := h.j_pos
  refine ⟨.inl ⟨hact, ?_, ⟨h.records.rising, fun k hk => ?_⟩⟩, ?_, ?_, ?_, ?_⟩
  · simp only [hj]
    omega
  · have hlast := h.records.last k hk
    have hle := hc.le_next (k := s.rsu.j.toNat - 1) (by omega)
    rw [Nat.sub_add_cancel hpos] at hle
    simp only [hj, Nat.add_sub_cancel]
    exact hlast.trans_le (Nat.add_le_add_right (Nat.add_le_add_right hle _) _)
  · simp [rsuOwed, hact, hstart]
  · simp only [rsuEffort, hact, reduceCtorEq, if_false, hj]
    omega
  · simp only [rsuPlace, hact, reduceCtorEq, if_false, hj]
    omega
  · simp only [rsuPlace, hact, reduceCtorEq, if_false, hj]
    omega

theorem Scanning.start (h : Scanning s) (hexec : execRsStart s = .next t) : RsuStepped s t := by
  obtain ⟨hsel, rfl⟩ := execRsStart_eq_next.1 hexec
  obtain ⟨-, d, hgap, hlong⟩ := selRsStart_iff.1 hsel
  obtain ⟨hlt, rfl⟩ := scanGap_eq_some hgap
  have hstart := startsFrame_of_start hsel
  have hact := h.act
  have hbound : (s.inAt (s.rsu.j.toNat - 1)).ts.toNat + frameGap s + 1 ≤ (s.inAt s.rsu.j.toNat).ts.toNat := by omega
  refine ⟨.inr ⟨rfl, h.j_pos, hlt, Nat.zero_le _, le_rfl, ⟨h.records.rising, fun k hk => ?_⟩⟩, ?_, ?_, ?_, ?_⟩
  · rw [Nat.zero_mul, Nat.add_zero]
    exact (h.records.last k hk).trans_le hbound
  · simp [rsuOwed, hact, hstart]
  · simp only [rsuEffort, hact, reduceCtorEq, if_false, if_true, if_pos (show 0 < 300 by decide)]
    omega
  · simp only [rsuPlace, hact, reduceCtorEq, if_false, if_true, hstart, le_rfl]
  · simp only [rsuPlace, if_true]
    omega

/-- What a frame's bits leave of the walk: n more of them, and what is owed is as before. -/
theorem Framing.emit (h : Framing s) (hc : RisingCapture s) {b : Bool} {n : Nat} (hn : s.rsu.count + n ≤ 300)
    (hemit : emitBits b n s = .next t) :
    Framing t ∧ rsuOwed t = rsuOwed s ∧ t.rsu.count = s.rsu.count + n ∧ t.rsu.k = s.rsu.k ∧ t.cfg = s.cfg ∧
      ∀ k, t.inAt k = s.inAt k := by
  obtain ⟨hlen, -, -, ht⟩ := emitBits_eq_next hemit
  have hrecords := RecordsBelow.emitBits hemit hc.spb_pos hn (h.t0_lt hc) h.records
  rw [ht] at hrecords ⊢
  have hact := h.act
  refine ⟨⟨hact, h.k_pos, h.k_lt, hn, h.t0_le, hrecords⟩, ?_, rfl, rfl, rfl, fun _ => rfl⟩
  simp only [rsuOwed, hact, if_true, hlen]
  omega

theorem Framing.edge (h : Framing s) (hc : RisingCapture s) (hexec : execRsEdge s = .next t) : RsuStepped s t := by
  obtain ⟨hsel, u, hemit, rfl⟩ := execRsEdge_eq_next.1 hexec
  obtain ⟨hopen, d, hgap, -⟩ := selRsEdge_iff.1 hsel
  obtain ⟨-, hcount⟩ := frameOpen_iff.1 hopen
  have hk := toNat_add_one_of_lt ((Nat.lt_succ_self _).trans (lt_of_edgeGap hgap))
  have hlt := lt_of_edgeGap hgap
  have hclamp : edgeBits s ≤ 300 - s.rsu.count := min_le_right _ _
  have hle := h.count_le
  obtain ⟨hframing, howed, hucount, huk, hucfg, huin⟩ := h.emit hc (by omega) hemit
  have hstart := startsFrame_of_inFrame h.act
  have hact := hframing.act
  have hsact := h.act
  have hnext := hc.le_next hlt
  refine ⟨.inr ⟨hact, ?_, ?_, hframing.count_le, ?_, ⟨hframing.records.rising, hframing.records.last⟩⟩, ?_, ?_, ?_, ?_⟩
  · simp only [huk, hk]
    omega
  · simp only [huk, hk, hucfg]
    exact hlt
  · have ht0 := hframing.t0_le
    simp only [huk, huin] at ht0
    simp only [huk, hk]
    exact ht0.trans (hnext.trans (by rw [← huin]; rfl))
  · simpa [hstart, rsuOwed, hact, hsact] using howed
  · simp only [rsuEffort, hact, hsact, if_true, huk, hk, hucfg, Config.frameBits] at hcount ⊢
    split <;> omega
  · simp only [rsuPlace, hact, hsact, if_true, huk, hk, hstart]
    omega
  · simp only [rsuPlace, hact, if_true, huk, hk]
    omega

/-- The residual that fills a frame (R158, R159) leaves RS.TRAIL to do. -/
theorem Framing.fill (h : Framing s) (hc : RisingCapture s) (hcount : s.rsu.count < 300) {b : Bool}
    (hemit : emitBits b (300 - s.rsu.count) s = .next t) : RsuStepped s t := by
  have hle := h.count_le
  obtain ⟨hframing, howed, htcount, htk, htcfg, -⟩ := h.emit hc (by omega) hemit
  have hstart := startsFrame_of_inFrame h.act
  have hlt := h.k_lt
  refine ⟨.inr hframing, by rw [howed, hstart, Nat.mul_zero, Nat.add_zero], ?_, ?_, ?_⟩
  · simp only [rsuEffort, hframing.act, h.act, if_true, htk, htcfg, htcount, hcount]
    split <;> omega
  · simp only [rsuPlace, hframing.act, h.act, if_true, htk, hstart, le_rfl]
  · simp only [rsuPlace, hframing.act, if_true, htk]
    omega

theorem Framing.clip (h : Framing s) (hc : RisingCapture s) (hexec : execRsClip s = .next t) : RsuStepped s t := by
  obtain ⟨hsel, hemit⟩ := execRsClip_eq_next.1 hexec
  have hcount := (frameOpen_iff.1 (selRsClip_iff.1 hsel).1).2
  have hclipped : Framing { s with rsu := { s.rsu with clipped := true } } :=
    ⟨h.act, h.k_pos, h.k_lt, h.count_le, h.t0_le, ⟨h.records.rising, h.records.last⟩⟩
  obtain ⟨hplace, howed, heffort, hadvance, hinside⟩ :=
    hclipped.fill ⟨hc.spb_pos, hc.rising, hc.below⟩ hcount hemit
  exact ⟨hplace, howed, heffort, hadvance, hinside⟩

theorem Framing.trail (h : Framing s) (hc : RisingCapture s) (hexec : execRsTrail s = .next t) : RsuStepped s t := by
  obtain ⟨hsel, hfits, rfl⟩ := execRsTrail_eq_next.1 hexec
  have hcount : s.rsu.count = 300 := (selRsTrail_iff.1 hsel).2
  have hk := toNat_add_one_of_lt h.k_lt
  have hlen : (s.rsLen + 1).toNat = s.rsLen.toNat + 1 := toNat_add_one (lt_of_fits hfits)
  have hstart := startsFrame_of_inFrame h.act
  have hlt := h.k_lt
  have hact := h.act
  have ht0 := h.t0_le
  have hj : (s.rsu.k + 1).toNat - 1 = s.rsu.k.toNat := by omega
  have hbound : s.rsu.t0.toNat + 300 * spb s ≤ (s.inAt s.rsu.k.toNat).ts.toNat + frameGap s := by
    rw [frameGap_eq]
    omega
  have hrsAt : ∀ a, State.rsAt { s with
      rsMem := s.rsMem.write s.rsLen.toNat { bit := false, ts := bitTime s 300 }
      rsLen := s.rsLen + 1
      act := .scan
      rsu := { s.rsu with j := s.rsu.k + 1 } } a =
      if a = s.rsLen.toNat then { bit := false, ts := bitTime s 300 } else s.rsAt a :=
    fun a => rsAt_write s s.rsLen.toNat a _
  have hrecords := h.records
  rw [hcount] at hrecords
  refine ⟨.inl ⟨rfl, ?_, ?_⟩, ?_, ?_, ?_, ?_⟩
  · simp only [hk]
    omega
  · simp only [hj]
    refine hrecords.append hc.spb_pos hlen (fun a ha => ?_) (fun q hq => ?_) ?_ fun q hq => ?_
    · rw [hrsAt, if_neg (by omega)]
    · obtain rfl : q = 0 := by omega
      rw [hrsAt, if_pos (Nat.add_zero _), toNat_bitTime (h.t0_lt hc) le_rfl, Nat.add_zero]
    · exact hbound.trans (Nat.le_succ _)
    · obtain rfl : q = 0 := by omega
      exact Nat.lt_succ_of_le hbound
  · simp only [rsuOwed, hact, reduceCtorEq, if_false, if_true, hlen, hcount, hstart]
  · simp only [rsuEffort, hact, reduceCtorEq, if_false, if_true, hk, hcount, lt_irrefl]
    omega
  · simp only [rsuPlace, hact, reduceCtorEq, if_false, if_true, hk, hstart, le_rfl]
  · simp only [rsuPlace, reduceCtorEq, if_false, hk]
    omega

/-- Every step of the walk keeps what the walk keeps, and goes on. -/
theorem RsuWalk.stepped (h : RsuWalk s) (hstep : rsuStep s = .next t) : RsuStepped s t := by
  obtain ⟨hc, hplace⟩ := h
  have framingOf : s.act = .inFrame → Framing s := fun ha =>
    hplace.resolve_left fun hs => nomatch ha.symm.trans hs.act
  have scanningOf : s.act = .scan → Scanning s := fun ha =>
    hplace.resolve_right fun hf => nomatch ha.symm.trans hf.act
  rcases rsuStep_eq_next hstep with h | h | h | h | h | h
  · exact (scanningOf (selRsScan_iff.1 (execRsScan_eq_next.1 h).1).1).scan hc h
  · exact (scanningOf (selRsStart_iff.1 (execRsStart_eq_next.1 h).1).1).start h
  · exact (framingOf (frameOpen_iff.1 (selRsEdge_iff.1 (execRsEdge_eq_next.1 h).1).1).1).edge hc h
  · obtain ⟨hsel, hemit⟩ := execRsFill_eq_next.1 h
    obtain ⟨hact, hcount⟩ := frameOpen_iff.1 (selRsFill_iff.1 hsel).1
    exact (framingOf hact).fill hc hcount hemit
  · exact (framingOf (frameOpen_iff.1 (selRsClip_iff.1 (execRsClip_eq_next.1 h).1).1).1).clip hc h
  · exact (framingOf (selRsTrail_iff.1 (execRsTrail_eq_next.1 h).1).1).trail hc h

theorem RsuWalk.step (h : RsuWalk s) (hstep : rsuStep s = .next t) : RsuWalk t :=
  ⟨h.capture.step hstep, (h.stepped hstep).place⟩

-- ---------------------------------------------------------------- where RS has room, every step exists

/-- R153: while records remain, the pair at j has its gap. -/
theorem Scanning.exists_scanGap (h : Scanning s) (hc : RisingCapture s) (hlt : s.rsu.j.toNat < s.cfg.inLen.toNat) :
    scanGap s = some ((s.inAt s.rsu.j.toNat).ts.toNat - (s.inAt (s.rsu.j.toNat - 1)).ts.toNat) := by
  have hpos := h.j_pos
  have hrise := hc.rising (s.rsu.j.toNat - 1) (Nat.zero_le _) (by omega)
  rw [Nat.sub_add_cancel hpos] at hrise
  exact scanGap_of_lt hpos hlt hrise

/-- R154, R155: while records remain, scanning goes on: with RS.START at a gap, with RS.SCAN elsewhere. -/
theorem Scanning.exists_step (h : Scanning s) (hc : RisingCapture s) (hlt : s.rsu.j.toNat < s.cfg.inLen.toNat) :
    ∃ t, rsuStep s = .next t := by
  have hgap := h.exists_scanGap hc hlt
  rcases Nat.lt_or_ge (frameGap s) ((s.inAt s.rsu.j.toNat).ts.toNat - (s.inAt (s.rsu.j.toNat - 1)).ts.toNat)
    with hlong | hshort
  · exact ⟨_, rsuStep_of_exec (.inr (.inl (execRsStart_eq_next.2 ⟨selRsStart_iff.2 ⟨h.act, _, hgap, hlong⟩, rfl⟩)))⟩
  · exact ⟨_, rsuStep_of_exec (.inl (execRsScan_eq_next.2 ⟨selRsScan_iff.2 ⟨h.act, _, hgap, hshort⟩, rfl⟩))⟩

/-- R156, R158 to R160: where RS has room for the frame in progress, the frame goes on. -/
theorem Framing.exists_step (h : Framing s) (hc : RisingCapture s) (hfits : fits s.par.rsCap (rsuOwed s) = true) :
    ∃ t, rsuStep s = .next t := by
  have hle := h.count_le
  have hroom : ∀ n, n ≤ 301 - s.rsu.count → fits s.par.rsCap (s.rsLen.toNat + n) = true := fun n hn =>
    fits_mono hfits (by simp only [rsuOwed, h.act, if_true]; omega)
  rcases Nat.lt_or_ge s.rsu.count 300 with hcount | hcount
  · have hopen : frameOpen s = true := frameOpen_iff.2 ⟨h.act, hcount⟩
    rcases Nat.lt_or_ge (s.rsu.k.toNat + 1) s.cfg.inLen.toNat with hlt | hend
    · have hgap := edgeGap_of_lt hlt (hc.rising _ (Nat.zero_le _) hlt)
      rcases Nat.lt_or_ge (frameGap s) ((s.inAt (s.rsu.k.toNat + 1)).ts.toNat - (s.inAt s.rsu.k.toNat).ts.toNat)
        with hlong | hshort
      · obtain ⟨t, hemit, -⟩ := emitBits_of_fits (frameLevel s) (300 - s.rsu.count) s (.inr (hroom _ (by omega)))
        exact ⟨t, rsuStep_of_exec (.inr (.inr (.inr (.inl
          (execRsFill_eq_next.2 ⟨selRsFill_iff.2 ⟨hopen, _, hgap, hlong⟩, hemit⟩)))))⟩
      · have hclamp : edgeBits s ≤ 300 - s.rsu.count := min_le_right _ _
        obtain ⟨u, hemit, -⟩ := emitBits_of_fits (frameLevel s) (edgeBits s) s (.inr (hroom _ (by omega)))
        exact ⟨_, rsuStep_of_exec (.inr (.inr (.inl
          (execRsEdge_eq_next.2 ⟨selRsEdge_iff.2 ⟨hopen, _, hgap, hshort⟩, u, hemit, rfl⟩))))⟩
    · obtain ⟨t, hemit, -⟩ := emitBits_of_fits false (300 - s.rsu.count)
        { s with rsu := { s.rsu with clipped := true } } (.inr (hroom _ (by omega)))
      exact ⟨t, rsuStep_of_exec (.inr (.inr (.inr (.inr (.inl
        (execRsClip_eq_next.2 ⟨selRsClip_iff.2 ⟨hopen, hend⟩, hemit⟩))))))⟩
  · have hsel : selRsTrail s = true := selRsTrail_iff.2 ⟨h.act, le_antisymm hle hcount⟩
    exact ⟨_, rsuStep_of_exec (.inr (.inr (.inr (.inr (.inr
      (execRsTrail_eq_next.2 ⟨hsel, hroom 1 (by omega), rfl⟩))))))⟩

theorem rsuDone_iff : rsuDone s = true ↔ s.act = .scan ∧ s.cfg.inLen.toNat ≤ s.rsu.j.toNat := by
  simp only [rsuDone, Bool.and_eq_true, beq_iff_eq, decide_eq_true_eq]

theorem RsuWalk.exists_step (h : RsuWalk s) (hdone : ¬rsuDone s = true)
    (hfits : fits s.par.rsCap (rsuOwed s) = true) : ∃ t, rsuStep s = .next t := by
  rcases h.place with hs | hf
  · exact hs.exists_step h.capture (Nat.lt_of_not_le fun hend => hdone (rsuDone_iff.2 ⟨hs.act, hend⟩))
  · exact hf.exists_step h.capture hfits

-- ---------------------------------------------------------------- the whole walk

/-- A walk with no effort left is done (R153). -/
theorem RsuWalk.done_of_effort (h : RsuWalk s) (heffort : rsuEffort s = 0) : rsuDone s = true := by
  rcases h.place with hs | hf
  · simp only [rsuEffort, hs.act, reduceCtorEq, if_false] at heffort
    exact rsuDone_iff.2 ⟨hs.act, by omega⟩
  · simp only [rsuEffort, hf.act, if_true] at heffort
    split at heffort <;> omega

/-- R163: the bound on the micro-operations is never what ends the walk. -/
theorem RsuWalk.loop_done {n : Nat} (h : RsuWalk s) (heffort : rsuEffort s ≤ n) (hloop : rsuLoop n s = .next t) :
    rsuDone t = true := by
  induction n generalizing s with
  | zero =>
    cases hloop
    exact h.done_of_effort (Nat.le_zero.1 heffort)
  | succ n ih =>
    rw [rsuLoop] at hloop
    split at hloop
    case isTrue hdone => cases hloop; exact hdone
    case isFalse =>
      obtain ⟨u, hstep, hloop⟩ := andThen_eq_next.1 hloop
      have hless := (h.stepped hstep).effort
      exact ih (h.step hstep) (by omega) hloop

theorem framesStarted_next {n : Nat} (hdone : ¬rsuDone s = true) (hstep : rsuStep s = .next t) :
    framesStarted (n + 1) s = startsFrame s + framesStarted n t :=
  framesStarted_step (Bool.eq_false_iff.2 hdone) hstep

/-- R137, R164: where RS has room for the frames detected, the walk ends, and RS_LEN is 301 times their number. -/
theorem RsuWalk.loop_exists {n : Nat} (h : RsuWalk s) (heffort : rsuEffort s ≤ n)
    (hfits : fits s.par.rsCap (rsuOwed s + 301 * framesStarted n s) = true) :
    ∃ t, rsuLoop n s = .next t ∧ RsuWalk t ∧ rsuOwed t = rsuOwed s + 301 * framesStarted n s := by
  induction n generalizing s with
  | zero => exact ⟨s, rfl, h, rfl⟩
  | succ n ih =>
    by_cases hdone : rsuDone s = true
    · exact ⟨s, if_pos hdone, h, by rw [framesStarted_done hdone, Nat.mul_zero, Nat.add_zero]⟩
    · obtain ⟨u, hstep⟩ := h.exists_step hdone (fits_mono hfits (Nat.le_add_right _ _))
      have hstepped := h.stepped hstep
      have howed := hstepped.owed
      have hless := hstepped.effort
      have hpar : u.par = s.par := by rw [rsuStep_only hstep]
      have hsum : rsuOwed s + 301 * framesStarted (n + 1) s = rsuOwed u + 301 * framesStarted n u := by
        rw [framesStarted_next hdone hstep, howed]
        omega
      rw [hsum] at hfits ⊢
      obtain ⟨t, hloop, hwalk, hlen⟩ := ih (h.step hstep) (by omega) (hpar ▸ hfits)
      exact ⟨t, by rw [rsuLoop, if_neg hdone, andThen_of_eq hstep, hloop], hwalk, hlen⟩

-- ---------------------------------------------------------------- how many frames there are

/-- Each frame detected takes a sample of its own. -/
theorem RsuWalk.framesStarted_le {n : Nat} (h : RsuWalk s) : framesStarted n s ≤ s.cfg.inLen.toNat - rsuPlace s := by
  induction n generalizing s with
  | zero => exact Nat.zero_le _
  | succ n ih =>
    by_cases hdone : rsuDone s = true
    · rw [framesStarted_done hdone]
      exact Nat.zero_le _
    · cases hstep : rsuStep s with
      | next u =>
        have hrest := ih (h.step hstep)
        have hcfg : u.cfg = s.cfg := by rw [rsuStep_only hstep]
        have hadvance := (h.stepped hstep).advance
        have hinside := (h.stepped hstep).inside
        rw [framesStarted_next hdone hstep]
        rw [hcfg] at hrest
        omega
      | fault r => cases r
      | refused r => simp [framesStarted, hdone, hstep]

/-- No two neighbouring samples from the pair (j - 1, j) on are more than a frame apart. -/
def NoGapFrom (s : State) (j : Nat) : Prop := ∀ k, j ≤ k + 1 → k + 1 < s.cfg.inLen.toNat → gapAt s k ≤ frameGap s

/-- R164, R165: a scan to the end of the capture detects no frame exactly where no gap is longer than FRAME_GAP. -/
theorem Scanning.framesStarted_eq_zero_iff {n : Nat} (h : Scanning s) (hc : RisingCapture s)
    (hn : s.cfg.inLen.toNat - s.rsu.j.toNat ≤ n) : framesStarted n s = 0 ↔ NoGapFrom s s.rsu.j.toNat := by
  induction n generalizing s with
  | zero => exact iff_of_true rfl fun k hk hlt => by omega
  | succ n ih =>
    have hpos := h.j_pos
    by_cases hdone : rsuDone s = true
    · have hend := (rsuDone_iff.1 hdone).2
      exact iff_of_true (framesStarted_done hdone) fun k hk hlt => by omega
    · have hlt : s.rsu.j.toNat < s.cfg.inLen.toNat :=
        Nat.lt_of_not_le fun hend => hdone (rsuDone_iff.2 ⟨h.act, hend⟩)
      have hgap : scanGap s = some (gapAt s (s.rsu.j.toNat - 1)) := by
        rw [h.exists_scanGap hc hlt, gapAt, Nat.sub_add_cancel hpos]
      rcases Nat.lt_or_ge (frameGap s) (gapAt s (s.rsu.j.toNat - 1)) with hlong | hshort
      · have hsel : selRsStart s = true := selRsStart_iff.2 ⟨h.act, _, hgap, hlong⟩
        have hstep := rsuStep_of_exec (.inr (.inl (execRsStart_eq_next.2 ⟨hsel, rfl⟩)))
        rw [framesStarted_next hdone hstep, startsFrame_of_start hsel]
        refine iff_of_false (by omega) fun hnone => ?_
        exact (hnone (s.rsu.j.toNat - 1) (by omega) (by omega)).not_gt hlong
      · have hsel : selRsScan s = true := selRsScan_iff.2 ⟨h.act, _, hgap, hshort⟩
        have hexec := execRsScan_eq_next.2 ⟨hsel, rfl⟩
        have hstep := rsuStep_of_exec (.inl hexec)
        have hj := toNat_add_one_of_lt hlt
        have hstart := startsFrame_of_not_start fun hstart => not_selRsScan_of_selRsStart hstart hsel
        have hscan := (h.scan hc hexec).place.resolve_right fun hf => nomatch h.act.symm.trans hf.act
        rw [framesStarted_next hdone hstep, hstart, Nat.zero_add,
          ih hscan (hc.step hstep) (by simp only [hj]; omega)]
        simp only [hj]
        constructor
        · intro hrest k hk hklt
          rcases Nat.lt_or_ge (s.rsu.j.toNat) (k + 1) with hlater | hhere
          · exact hrest k hlater hklt
          · obtain rfl : k = s.rsu.j.toNat - 1 := by omega
            exact hshort
        · intro hall k hk hklt
          exact hall k (by omega) hklt

-- ---------------------------------------------------------------- the command

theorem risingCapture_of_ready (hrate : 200000 ≤ s.cfg.sampleRate.toNat) (hin : CaptureReady s) : RisingCapture s := by
  refine ⟨spb_pos_of_rate hrate, hin.rising le_rfl, fun k hpos hlt => ?_⟩
  have hpair := hin.2.2 (k - 1) (by omega) (by omega) (.inl ⟨Nat.zero_le _, by omega⟩)
  rw [Nat.sub_add_cancel hpos] at hpair
  exact hpair.2

theorem scanning_rsuBegin (s : State) : Scanning (rsuBegin s) :=
  ⟨rfl, le_rfl, ⟨fun _ hk => absurd hk (Nat.not_lt_zero _), fun _ hk => absurd hk (Nat.succ_ne_zero _)⟩⟩

theorem rsuWalk_rsuBegin (h : RisingCapture s) : RsuWalk (rsuBegin s) :=
  ⟨⟨h.spb_pos, h.rising, h.below⟩, .inl (scanning_rsuBegin s)⟩

theorem rsuEffort_rsuBegin_le (s : State) : rsuEffort (rsuBegin s) ≤ 4 * s.cfg.inLen.toNat :=
  Nat.mul_le_mul_left 4 (Nat.sub_le _ _)

theorem RsuWalk.rising_records (h : RsuWalk s) :
    ∀ k, k + 1 < s.rsLen.toNat → (s.rsAt k).ts.toNat < (s.rsAt (k + 1)).ts.toNat := by
  rcases h.place with hs | hf
  · exact hs.records.rising
  · exact hf.records.rising

/-- R163, R164, R339: over a legal capture, with room in RS for the frames detected, the RSU completes and leaves a well
formed RS. -/
theorem rsuBody_of_ready (hrate : 200000 ≤ s.cfg.sampleRate.toNat) (hin : CaptureReady s)
    (hfits : fits s.par.rsCap (301 * framesDetected s) = true) :
    ∃ t, rsuBody s = .next t ∧ ResampledReady t ∧ t.rsLen.toNat = 301 * framesDetected s := by
  have hwalk := rsuWalk_rsuBegin (risingCapture_of_ready hrate hin)
  have hnone : rsuOwed (rsuBegin s) = 0 := rfl
  obtain ⟨t, hloop, ht, hlen⟩ := hwalk.loop_exists (rsuEffort_rsuBegin_le s) (by rw [hnone, Nat.zero_add]; exact hfits)
  have hact := (rsuDone_iff.1 (hwalk.loop_done (rsuEffort_rsuBegin_le s) hloop)).1
  have hrsLen : t.rsLen.toNat = 301 * framesDetected s := by
    simpa [rsuOwed, hact, framesDetected] using hlen
  have hpar : t.par = s.par := by rw [rsuBody_only hloop]
  exact ⟨t, hloop, ⟨by rw [hpar, hrsLen]; exact hfits, fun k _ => ht.rising_records k⟩, hrsLen⟩

theorem framesDetected_le (h : RisingCapture s) : framesDetected s ≤ s.cfg.inLen.toNat :=
  (rsuWalk_rsuBegin h).framesStarted_le.trans (Nat.sub_le _ _)

theorem framesDetected_eq_zero_iff (h : RisingCapture s) : framesDetected s = 0 ↔
    ∀ k, k + 1 < s.cfg.inLen.toNat → (s.inAt (k + 1)).ts.toNat - (s.inAt k).ts.toNat ≤ 300 * spb s := by
  refine ((scanning_rsuBegin s).framesStarted_eq_zero_iff (rsuWalk_rsuBegin h).capture ?_).trans ?_
  · simp only [rsuBegin_cfg]
    omega
  · exact forall_congr' fun k => ⟨fun hgap => hgap (Nat.le_add_left 1 k), fun hgap _ => hgap⟩

/-- The registers that a command with or without RUN's hand-over sets before its first unit. -/
def Aside.started (r : Bool) (s : State) : Aside :=
  { status := s.prologue.status, mode := s.cfg.mode, modeEff := s.modeEff, modeFromGaps := s.modeFromGaps,
    mdu := s.mdu, inRun := r }

/-- R137: RESAMPLE completes where the RSU does. -/
theorem exec_resample_of_rsuBody (hrate : 200000 ≤ s.cfg.sampleRate.toNat) (hin : CaptureReady s)
    (h : rsuBody s = .next t) : exec .resample s = .next (finish (t.withAside (Aside.started false s))) := by
  have hbody : rsuBody (started false s) = .next (t.withAside (Aside.started false s)) :=
    rsuBody_withAside (s := s) (x := Aside.started false s) h
  calc exec .resample s
      = withInput s.prologue 0 s.cfg.inLen.toNat
          (andThen (rsuBody (started false s)) fun s => .next (finish s)) := precheck_of_rate (s := s.prologue) hrate _
    _ = _ := by rw [withInput_of_ready (s := s.prologue) hin, andThen_of_eq hbody]

end

/-- Settles O36: the RSU's walk completes from the state as it is, and the registers it leaves aside do not matter. -/
theorem resampleCompletes : Obligations.ResampleCompletes := by
  intro s hrate hin hfits
  have hc := risingCapture_of_ready hrate hin
  obtain ⟨t, hbody, hready, hlen⟩ := rsuBody_of_ready hrate hin hfits
  refine ⟨_, exec_resample_of_rsuBody hrate hin hbody, ?_, hready, hlen, framesDetected_le hc,
    framesDetected_eq_zero_iff hc⟩
  rw [OnlyResampled, rsuBody_only hbody]
  rfl

end Sys2Proof.Machine
end

-- ==== the frame synchronizer's pass and FRAME ====
section
/-! Proofs about the Frame Synchronizer's body (spec/43_framer.md R203, R221, R223) and the command FRAME
(spec/40_commands.md R138): on a well-formed RS, with the room that R339 asks, every step of the pass exists, and the
pass counts its frames by its events. -/

namespace Sys2Proof.Machine

-- ---------------------------------------------------------------- what a pass has emitted

/-- A frame event (R101, R215). -/
def EvRec.isFrame (e : EvRec) : Bool := e.kind == .frameDecoded || e.kind == .frameLost

/-- A BYTE event (R101, R211). -/
def EvRec.isByte (e : EvRec) : Bool := e.kind == .byte

/-- How many frame events a list holds. -/
def frameEvents (l : List EvRec) : Nat := (l.filter EvRec.isFrame).length

/-- How many BYTE events a list holds. -/
def byteEvents (l : List EvRec) : Nat := (l.filter EvRec.isByte).length

theorem frameEvents_byte (l : List EvRec) (s : State) (raw : W12) :
    frameEvents (l ++ [byteEvent s raw]) = frameEvents l := by
  simp [frameEvents, EvRec.isFrame, byteEvent]

theorem byteEvents_byte (l : List EvRec) (s : State) (raw : W12) :
    byteEvents (l ++ [byteEvent s raw]) = byteEvents l + 1 := by
  simp [byteEvents, EvRec.isByte, byteEvent]

/-- R215: whatever its tag, a frame event is one and no BYTE event. -/
theorem frameEvents_frame (l : List EvRec) (s : State) (lp : BitVec 7) :
    frameEvents (l ++ [frameEvent s lp]) = frameEvents l + 1 := by
  by_cases htag : lp = s.prevLoss <;> simp [frameEvents, EvRec.isFrame, frameEvent, frameTag, htag]

theorem byteEvents_frame (l : List EvRec) (s : State) (lp : BitVec 7) :
    byteEvents (l ++ [frameEvent s lp]) = byteEvents l := by
  by_cases htag : lp = s.prevLoss <;> simp [byteEvents, EvRec.isByte, frameEvent, frameTag, htag]

-- ---------------------------------------------------------------- what a pass keeps

/-- The decoder's counters after `n` frames, each counted as good or as error (R243, R245), and at most once as
lost (R264). -/
structure FramesCounted (d d' : Decoded) (n : Nat) : Prop where
  total : d'.good.toNat + d'.errors.toNat = d.good.toNat + d.errors.toNat + n
  good : d'.good.toNat ≤ d.good.toNat + n
  lost : d'.lost.toNat ≤ d.lost.toNat + n
  errors : d'.errors.toNat ≤ d.errors.toNat + n

/-- The FSU in a pass that began in `s₀` and has emitted the events `l` since the label: each BYTE event took twelve
samples and each frame event three hundred, the word and the frame in progress included (R204, R205, R213). -/
structure FsuPass (s₀ s : State) (l : List EvRec) : Prop where
  act : s.act = .fsuWalk
  ready : ResampledReady s
  cfg : s.cfg = s₀.cfg
  par : s.par = s₀.par
  rsLen : s.rsLen = s₀.rsLen
  inside : s.fsu.i.toNat ≤ s.rsLen.toNat
  bitcnt : s.fsu.bitcnt.toNat ≤ 11
  bytecnt : s.fsu.bytecnt.toNat ≤ 24
  ev : s.ev = s₀.ev ++ { kind := .label, line := s₀.cfg.chIndex } :: l
  evLen : l.length = byteEvents l + frameEvents l
  words : 12 * byteEvents l + s.fsu.bitcnt.toNat ≤ s.fsu.i.toNat
  frames : 300 * frameEvents l + 12 * s.fsu.bytecnt.toNat + s.fsu.bitcnt.toNat ≤ s.fsu.i.toNat
  bytes : 25 * frameEvents l + s.fsu.bytecnt.toNat ≤ byteEvents l
  frameCount : s.frameCount.toNat = s₀.frameCount.toNat + frameEvents l
  dec : FramesCounted s₀.dec s.dec (frameEvents l)

/-- The room that R339 and R340 ask for a pass over RS. -/
structure FsuRoom (s : State) : Prop where
  ev : fits s.par.evCap (s.ev.length + 1 + s.rsLen.toNat / 12 + s.rsLen.toNat / 300) = true
  frameCount : countsLeft s.frameCount (s.rsLen.toNat / 300)
  good : countsLeft s.dec.good (s.rsLen.toNat / 300)
  lost : countsLeft s.dec.lost (s.rsLen.toNat / 300)
  errors : countsLeft s.dec.errors (s.rsLen.toNat / 300)

section

variable {s₀ s t : State} {l : List EvRec}

/-- EV has room for `n` more events where the pass stays within the events of R339. -/
theorem FsuPass.fits_ev (h : FsuPass s₀ s l) (hroom : FsuRoom s₀) {n : Nat}
    (hn : byteEvents l + frameEvents l + n ≤ s₀.rsLen.toNat / 12 + s₀.rsLen.toNat / 300) :
    fits s.par.evCap (s.ev.length + n) = true := by
  rw [h.par]
  refine fits_mono hroom.ev ?_
  have hlen := h.evLen
  simp only [h.ev, List.length_append, List.length_cons]
  omega

/-- R203: before the last record, the pair at i has its gap. -/
theorem FsuPass.exists_syncGap (h : FsuPass s₀ s l) (hlt : s.fsu.i.toNat + 1 < s.rsLen.toNat) :
    ∃ d, syncGap s = some d :=
  ⟨_, syncGap_of_lt hlt (h.ready.2 _ (by omega) hlt)⟩

/-- The FDU counts the frame where its counters have room for one more. -/
theorem exists_fdu (hg : countsLeft s.dec.good 1) (hl : countsLeft s.dec.lost 1) (he : countsLeft s.dec.errors 1) :
    ∃ t, fdu s = .next t := by
  by_cases hv : ValidFrame s.fb
  · exact ⟨_, fdu_of_valid hv hg fun _ => hl⟩
  · exact ⟨_, fdu_of_not_valid hv he⟩

/-- R243, R245, R264: the FDU counts one frame. -/
theorem FramesCounted.fdu {d : Decoded} {n : Nat} (h : FramesCounted d s.dec n) (hfdu : fdu s = .next t) :
    FramesCounted d t.dec (n + 1) := by
  obtain ⟨htotal, hgood, hlost, herrors⟩ := h
  rcases fdu_eq_next hfdu with ⟨-, hg, hl, rfl⟩ | ⟨-, he, rfl⟩
  · have hg' := toNat_add_one hg
    have hl' : (decodedOf s.fb s.dec).lost.toNat ≤ s.dec.lost.toNat + 1 := by
      simp only [decodedOf]
      split
      case isTrue hf => exact (toNat_add_one (hl hf)).le
      case isFalse => exact Nat.le_succ _
    exact ⟨by simp only [decodedOf, hg']; omega, by simp only [decodedOf, hg']; omega, hl'.trans (by omega),
      by simp only [decodedOf]; omega⟩
  · have he' := toNat_add_one he
    exact ⟨by simp only [he']; omega, by simp only; omega, by simp only; omega, by simp only [he']; omega⟩

-- ---------------------------------------------------------------- the steps of a pass

/-- What FR.FRAME hands to the FDU (R213): the twenty-fifth word complete, and the frame counted. -/
def frameHanded (s : State) : State :=
  { s with
    fb := s.fb.setIfInBounds s.fsu.bytecnt.toNat (dataByte (nextRaw s))
    ev := s.ev ++ [byteEvent s (nextRaw s)]
    fsu := { s.fsu with raw := 0, bitcnt := 0 }
    frameCount := s.frameCount + 1 }

theorem FsuPass.shift (h : FsuPass s₀ s l) (hexec : execFrShift s = .next t) : FsuPass s₀ t l := by
  obtain ⟨hsel, rfl⟩ := execFrShift_eq_next.1 hexec
  obtain ⟨hsync, hbit⟩ := selFrShift_iff.1 hsel
  have hi := toNat_add_one_of_lt ((Nat.lt_succ_self _).trans (lt_of_inSync hsync))
  have hlt := lt_of_inSync hsync
  have hbit' : (s.fsu.bitcnt + 1).toNat = s.fsu.bitcnt.toNat + 1 := by
    rw [BitVec.toNat_add]
    exact Nat.mod_eq_of_lt (by simp; omega)
  have hwords := h.words
  have hframes := h.frames
  exact { h with
    inside := by simp only [stepEnd_fsu, stepEnd_rsLen, hi]; omega
    bitcnt := by simp only [stepEnd_fsu, hbit']; omega
    words := by simp only [stepEnd_fsu, hbit', hi]; omega
    frames := by simp only [stepEnd_fsu, hbit', hi]; omega }

theorem FsuPass.word (h : FsuPass s₀ s l) (hexec : execFrWord s = .next t) :
    FsuPass s₀ t (l ++ [byteEvent s (nextRaw s)]) := by
  obtain ⟨hsel, -, rfl⟩ := execFrWord_eq_next.1 hexec
  obtain ⟨hsync, hbit, hbyte⟩ := selFrWord_iff.1 hsel
  have hlt := lt_of_inSync hsync
  have hi := toNat_add_one_of_lt ((Nat.lt_succ_self _).trans hlt)
  have hbyte' : (s.fsu.bytecnt + 1).toNat = s.fsu.bytecnt.toNat + 1 := by
    rw [BitVec.toNat_add]
    exact Nat.mod_eq_of_lt (by simp; omega)
  have hzero : (0 : BitVec 4).toNat = 0 := rfl
  have hwords := h.words
  have hframes := h.frames
  have hbytes := h.bytes
  have hevLen := h.evLen
  exact { h with
    inside := by simp only [stepEnd_fsu, stepEnd_rsLen, hi]; omega
    bitcnt := Nat.zero_le _
    bytecnt := by simp only [stepEnd_fsu, hbyte']; omega
    ev := by simp only [stepEnd_ev, h.ev, List.append_assoc, List.cons_append]
    evLen := by
      rw [List.length_append, byteEvents_byte, frameEvents_byte, hevLen, List.length_singleton]
      omega
    words := by rw [byteEvents_byte]; simp only [stepEnd_fsu, hi, hzero]; omega
    frames := by rw [frameEvents_byte]; simp only [stepEnd_fsu, hbyte', hi, hzero]; omega
    bytes := by rw [byteEvents_byte, frameEvents_byte]; simp only [stepEnd_fsu, hbyte']; omega
    frameCount := by rw [frameEvents_byte]; exact h.frameCount
    dec := by rw [frameEvents_byte]; exact h.dec }

theorem FsuPass.frame (h : FsuPass s₀ s l) (hexec : execFrFrame s = .next t) :
    ∃ e, FsuPass s₀ t (l ++ [byteEvent s (nextRaw s)] ++ [e]) := by
  obtain ⟨hsel, -, hcount, d, c, hdecode, hclose, rfl⟩ := execFrFrame_eq_next.1 hexec
  obtain ⟨hsync, hbit, hbyte⟩ := selFrFrame_iff.1 hsel
  have hcounted := FramesCounted.fdu (s := frameHanded s) h.dec hdecode
  have hd := fdu_only hdecode
  obtain ⟨-, rfl⟩ := closeFrame_eq_next.1 hclose
  rw [hd]
  have hlt := lt_of_inSync hsync
  have hi := toNat_add_one_of_lt ((Nat.lt_succ_self _).trans hlt)
  have hcount' := toNat_add_one hcount
  have hzero : (0 : BitVec 4).toNat = 0 := rfl
  have hzero' : (0 : BitVec 5).toNat = 0 := rfl
  have hwords := h.words
  have hframes := h.frames
  have hbytes := h.bytes
  have hevLen := h.evLen
  refine ⟨_, { h with
    inside := by simp only [stepEnd_fsu, stepEnd_rsLen, hi]; omega
    bitcnt := Nat.zero_le _
    bytecnt := Nat.zero_le _
    ev := by simp only [stepEnd_ev, h.ev, List.append_assoc, List.cons_append]; rfl
    evLen := by
      rw [List.length_append, List.length_append, byteEvents_frame, byteEvents_byte, frameEvents_frame,
        frameEvents_byte, hevLen, List.length_singleton, List.length_singleton]
      omega
    words := by rw [byteEvents_frame, byteEvents_byte]; simp only [stepEnd_fsu, hi, hzero]; omega
    frames := by rw [frameEvents_frame, frameEvents_byte]; simp only [stepEnd_fsu, hi, hzero, hzero']; omega
    bytes := by
      rw [byteEvents_frame, byteEvents_byte, frameEvents_frame, frameEvents_byte]
      simp only [stepEnd_fsu, hzero']
      omega
    frameCount := by
      rw [frameEvents_frame, frameEvents_byte]
      simp only [stepEnd_frameCount, hcount', h.frameCount]
      omega
    dec := by rw [frameEvents_frame, frameEvents_byte]; exact hcounted }⟩

theorem FsuPass.desync (h : FsuPass s₀ s l) (hexec : execFrDesync s = .next t) : FsuPass s₀ t l := by
  obtain ⟨hsel, rfl⟩ := execFrDesync_eq_next.1 hexec
  obtain ⟨-, d, hgap, -⟩ := selFrDesync_iff.1 hsel
  have hlt := lt_of_syncGap hgap
  have hi := toNat_add_one_of_lt ((Nat.lt_succ_self _).trans hlt)
  have hzero : (0 : BitVec 4).toNat = 0 := rfl
  have hzero' : (0 : BitVec 5).toNat = 0 := rfl
  have hwords := h.words
  have hframes := h.frames
  have hbytes := h.bytes
  exact { h with
    inside := by simp only [stepEnd_fsu, stepEnd_rsLen, hi]; omega
    bitcnt := Nat.zero_le _
    bytecnt := Nat.zero_le _
    words := by simp only [stepEnd_fsu, hi, hzero]; omega
    frames := by simp only [stepEnd_fsu, hi, hzero, hzero']; omega
    bytes := by simp only [stepEnd_fsu, hzero']; omega }

theorem FsuPass.tail (h : FsuPass s₀ s l) (hexec : execFrTail s = .next t) : FsuPass s₀ t l := by
  obtain ⟨hsel, rfl⟩ := execFrTail_eq_next.1 hexec
  obtain ⟨-, hend⟩ := selFrTail_iff.1 hsel
  have hi := toNat_add_one_of_lt (v := s.rsLen) (w := s.fsu.i) (by omega)
  have hwords := h.words
  have hframes := h.frames
  exact { h with
    inside := by simp only [stepEnd_fsu, stepEnd_rsLen, hi]; omega
    words := by simp only [stepEnd_fsu, hi]; omega
    frames := by simp only [stepEnd_fsu, hi]; omega }

/-- Every step of a pass keeps what a pass keeps. -/
theorem FsuPass.step (h : FsuPass s₀ s l) (hstep : fsuStep s = .next t) : ∃ l', FsuPass s₀ t l' := by
  rcases fsuStep_eq_next hstep with hexec | hexec | hexec | hexec | hexec
  · exact ⟨_, h.shift hexec⟩
  · exact ⟨_, h.word hexec⟩
  · obtain ⟨e, ht⟩ := h.frame hexec
    exact ⟨_, ht⟩
  · exact ⟨_, h.desync hexec⟩
  · exact ⟨_, h.tail hexec⟩

/-- R213, R339, R340: within the room of the pass, FR.FRAME completes where it is selected. -/
theorem FsuPass.exists_frame (h : FsuPass s₀ s l) (hroom : FsuRoom s₀) (hsel : selFrFrame s = true) :
    ∃ t, execFrFrame s = .next t := by
  obtain ⟨hsync, hbit, hbyte⟩ := selFrFrame_iff.1 hsel
  have hlt := lt_of_inSync hsync
  have hwords := h.words
  have hframes := h.frames
  rw [h.rsLen] at hlt
  have hmoreBytes : byteEvents l + 1 ≤ s₀.rsLen.toNat / 12 := by omega
  have hmoreFrames : frameEvents l + 1 ≤ s₀.rsLen.toNat / 300 := by omega
  have countsOne : ∀ {c c₀ : Word}, c.toNat ≤ c₀.toNat + frameEvents l →
      countsLeft c₀ (s₀.rsLen.toNat / 300) → countsLeft c 1 := fun hle hleft => by
    simp only [countsLeft] at hleft ⊢
    omega
  obtain ⟨d, hdecode⟩ := exists_fdu (s := frameHanded s) (countsOne h.dec.good hroom.good)
    (countsOne h.dec.lost hroom.lost) (countsOne h.dec.errors hroom.errors)
  have hclose : fits d.par.evCap (d.ev.length + 1) = true := by
    rw [fdu_only hdecode]
    simpa [frameHanded, Nat.add_assoc] using h.fits_ev hroom (n := 2) (by omega)
  exact ⟨_, execFrFrame_eq_next.2 ⟨hsel, h.fits_ev hroom (by omega), countsOne h.frameCount.le hroom.frameCount, d, _,
    hdecode, closeFrame_eq_next.2 ⟨hclose, rfl⟩, rfl⟩⟩

/-- R203, R339: while records remain, the pass goes on. -/
theorem FsuPass.exists_step (h : FsuPass s₀ s l) (hroom : FsuRoom s₀) (hlt : s.fsu.i.toNat < s.rsLen.toNat) :
    ∃ t, fsuStep s = .next t := by
  have hlen : s.rsLen.toNat = s₀.rsLen.toNat := by rw [h.rsLen]
  have hwords := h.words
  have hframes := h.frames
  rcases Nat.lt_or_ge (s.fsu.i.toNat + 1) s.rsLen.toNat with hinner | hlast
  · obtain ⟨d, hgap⟩ := h.exists_syncGap hinner
    rcases Nat.lt_or_ge (spb s) d with hlong | hshort
    · exact ⟨_, fsuStep_of_exec (.inr (.inr (.inr (.inl
        (execFrDesync_eq_next.2 ⟨selFrDesync_iff.2 ⟨h.act, d, hgap, hlong⟩, rfl⟩)))))⟩
    have hsync : inSync s = true := inSync_iff.2 ⟨h.act, d, hgap, hshort⟩
    rcases Nat.lt_or_ge s.fsu.bitcnt.toNat 11 with hbit | hbit
    · exact ⟨_, fsuStep_of_exec (.inl (execFrShift_eq_next.2 ⟨selFrShift_iff.2 ⟨hsync, hbit⟩, rfl⟩))⟩
    have hbit : s.fsu.bitcnt.toNat = 11 := le_antisymm h.bitcnt hbit
    rcases Nat.lt_or_ge s.fsu.bytecnt.toNat 24 with hbyte | hbyte
    · exact ⟨_, fsuStep_of_exec (.inr (.inl (execFrWord_eq_next.2
        ⟨selFrWord_iff.2 ⟨hsync, hbit, hbyte⟩, h.fits_ev hroom (by omega), rfl⟩)))⟩
    have hbyte : s.fsu.bytecnt.toNat = 24 := le_antisymm h.bytecnt hbyte
    obtain ⟨t, hexec⟩ := h.exists_frame hroom (selFrFrame_iff.2 ⟨hsync, hbit, hbyte⟩)
    exact ⟨t, fsuStep_of_exec (.inr (.inr (.inl hexec)))⟩
  · have hend : s.fsu.i.toNat + 1 = s.rsLen.toNat := by omega
    exact ⟨_, fsuStep_of_exec (.inr (.inr (.inr (.inr
      (execFrTail_eq_next.2 ⟨selFrTail_iff.2 ⟨h.act, hend⟩, rfl⟩)))))⟩

-- ---------------------------------------------------------------- the whole pass

/-- R223: the pass takes one step for each record that is left. -/
theorem FsuPass.loop_exists {n : Nat} (h : FsuPass s₀ s l) (hroom : FsuRoom s₀)
    (hn : s.fsu.i.toNat + n = s.rsLen.toNat) : ∃ t l', fsuLoop n s = .next t ∧ FsuPass s₀ t l' := by
  induction n generalizing s l with
  | zero => exact ⟨s, l, rfl, h⟩
  | succ n ih =>
    obtain ⟨u, hstep⟩ := h.exists_step hroom (by omega)
    obtain ⟨m, hu⟩ := h.step hstep
    have hi := toNat_add_one_of_lt (w := s.fsu.i) (v := s.rsLen) (by omega)
    have hui : u.fsu.i.toNat + n = u.rsLen.toNat := by
      rw [fsuStep_only hstep]
      simp only [hi]
      omega
    obtain ⟨t, l', hloop, ht⟩ := ih hu hui
    exact ⟨t, l', andThen_eq_next.2 ⟨u, hstep, hloop⟩, ht⟩

/-- R138, R223, R339: on a well-formed RS with room, the FSU's body completes; `s` is the state it starts from. -/
theorem fsuBody_of_room (hready : ResampledReady s) (hroom : FsuRoom s) :
    ∃ t l, fsuBody s = .next t ∧ FsuPass s t l := by
  have hlabel : execFrLabel (fsuBegin s) = .next { fsuBegin s with
      act := .fsuInit, ev := s.ev ++ [{ kind := .label, line := s.cfg.chIndex }] } :=
    execFrLabel_eq_next.2 ⟨rfl, fits_mono hroom.ev (by simp only [fsuBegin_ev]; omega), rfl⟩
  have hbegin : FsuPass s (fsuInit { fsuBegin s with
      act := .fsuInit, ev := s.ev ++ [{ kind := .label, line := s.cfg.chIndex }] }) [] :=
    { act := rfl, ready := hready, cfg := rfl, par := rfl, rsLen := rfl, inside := Nat.zero_le _,
      bitcnt := Nat.zero_le _, bytecnt := Nat.zero_le _, ev := rfl, evLen := rfl, words := le_rfl, frames := le_rfl,
      bytes := le_rfl, frameCount := rfl, dec := ⟨rfl, le_rfl, le_rfl, le_rfl⟩ }
  obtain ⟨t, l, hloop, ht⟩ := hbegin.loop_exists hroom (Nat.zero_add _)
  exact ⟨t, l, fsuBody_eq_next.2 ⟨_, hlabel, hloop⟩, ht⟩

-- ---------------------------------------------------------------- the command

/-- The host's obligations on RS are what FRAME checks (R338, R339). -/
theorem withResampled_of_ready (h : ResampledReady s) (body : Out) : withResampled s body = body := by
  obtain ⟨hfits, hrise⟩ := h
  have hall : (List.range (s.rsLen.toNat - 1)).all
      (fun k => decide ((s.rsAt k).ts.toNat < (s.rsAt (k + 1)).ts.toNat)) = true := by
    refine List.all_eq_true.2 fun k hk => decide_eq_true ?_
    have hlt := List.mem_range.1 hk
    exact hrise k (by omega) (by omega)
  simp only [withResampled, hfits, hall, Bool.not_true, Bool.false_eq_true, if_false]

/-- R138: FRAME completes where the FSU does. -/
theorem exec_frame_of_fsuBody (hrate : 200000 ≤ s.cfg.sampleRate.toNat) (hready : ResampledReady s)
    (h : fsuBody (started false s) = .next t) : exec .frame s = .next (finish t) :=
  calc exec .frame s
      = withResampled s.prologue (andThen (fsuBody (started false s)) fun s => .next (finish s)) :=
        precheck_of_rate (s := s.prologue) hrate _
    _ = _ := by rw [withResampled_of_ready (s := s.prologue) hready, andThen_of_eq h]

end

/-- Settles O46: the pass over RS has its room, and what it keeps gives the counts. -/
theorem frameCompletesAndCounts : Obligations.FrameCompletesAndCounts := by
  intro s hrate hready hev hcount hgood hlost herrors
  obtain ⟨t, l, hbody, hpass⟩ := fsuBody_of_room (s := started false s) hready ⟨hev, hcount, hgood, hlost, herrors⟩
  have honly := fsuBody_only hbody
  refine ⟨finish t, l, frameEvents l, exec_frame_of_fsuBody hrate hready hbody, ?_, hpass.ev, rfl,
    (Nat.le_add_right _ _).trans hpass.bytes, hpass.frameCount, hpass.dec.total⟩
  rw [OnlyFramed, honly]
  rfl

end Sys2Proof.Machine
end

-- ==== RUN: its mode, and its units in sequence ====
section
/-! Proofs about the command RUN (spec/40_commands.md R136, R143): where it completes, the mode it stores, and that its
RSU and FSU do what RESAMPLE and then FRAME do. -/

namespace Sys2Proof.Machine

section

variable {s t : State}

-- ---------------------------------------------------------------- what a command that raised nothing did

/-- R296: an exception leaves its code in ERR. -/
theorem takeException_err_ne_zero (s : State) (e : Exc) : (s.takeException e).status.err ≠ 0 := by
  have hcode : BitVec.ofNat 4 (excCode e) ≠ 0 := by cases e <;> decide
  exact hcode

/-- RUN that raised nothing passed its checks and ran its units. -/
theorem execRun_of_no_err (h : exec .run s = .next t) (herr : t.status.err = 0) :
    200000 ≤ s.cfg.sampleRate.toNat ∧ s.cfg.mode ≠ 3 ∧ CaptureReady s ∧ ∃ a b c,
      runMode (started true s) = .next a ∧ rsuBody a = .next b ∧ fsuBody b = .next c ∧ t = finish c := by
  rcases precheck_eq_next.1 h with ⟨hrate, h⟩ | ⟨-, rfl⟩
  · split at h
    case isTrue =>
      cases raise_eq_next.1 h
      exact absurd herr (takeException_err_ne_zero _ _)
    case isFalse hmode =>
      obtain ⟨hfits, hall, h⟩ := withInput_eq_next.1 h
      obtain ⟨a, ha, h⟩ := andThen_eq_next.1 h
      obtain ⟨b, hb, h⟩ := andThen_eq_next.1 h
      obtain ⟨c, hc, h⟩ := andThen_eq_next.1 h
      cases h
      exact ⟨hrate, hmode, inputReady_of_checks (s := s.prologue) hfits hall, a, b, c, ha, hb, hc, rfl⟩
  · exact absurd herr (takeException_err_ne_zero _ _)

-- ---------------------------------------------------------------- the mode (R36)

/-- R136: MODE 0 is what the MDU gives on the whole capture. -/
theorem runMode_autodetect (hmode : s.cfg.mode = 0) (hin : CaptureReady s) (r : Bool) :
    runMode (started r s) = .next (storeMode (mduEnd (started r s) 0 s.cfg.inLen.toNat)) := by
  have hmdu := mduBody_of_rising (s := started r s) (hin.rising le_rfl)
  exact (if_pos hmode).trans (andThen_of_eq hmdu)

/-- R136: another MODE is stored as it is. -/
theorem runMode_forced (hmode : s.cfg.mode ≠ 0) (r : Bool) :
    runMode (started r s) = .next { started r s with modeEff := s.cfg.mode, modeFromGaps := false } :=
  if_neg hmode

theorem exists_runMode (hin : CaptureReady s) (r : Bool) : ∃ t, runMode (started r s) = .next t := by
  by_cases hmode : s.cfg.mode = 0
  · exact ⟨_, runMode_autodetect hmode hin r⟩
  · exact ⟨_, runMode_forced hmode r⟩

/-- After the mode part of RUN, its RSU and FSU keep MODE_RESULT. -/
theorem modeResult_of_units {a b c : State} (hrsu : rsuBody a = .next b) (hfsu : fsuBody b = .next c) :
    c.modeEff = a.modeEff ∧ c.modeFromGaps = a.modeFromGaps := by
  rw [fsuBody_only hfsu, rsuBody_only hrsu]
  exact ⟨rfl, rfl⟩

end

/-- Settles O49: MODE_RESULT is that of RUN's mode part, which is the forced mode or the MDU over the whole capture; the
MDU reads nothing that differs between RUN and the MODEDET of that range. -/
theorem runStoresTheMode : Obligations.RunStoresTheMode := by
  intro s t h herr
  obtain ⟨hrate, -, hin, a, b, c, hmodePart, hrsu, hfsu, rfl⟩ := execRun_of_no_err h herr
  obtain ⟨hkeptEff, hkeptGaps⟩ := modeResult_of_units hrsu hfsu
  constructor
  · intro hmode
    rw [runMode_forced hmode] at hmodePart
    cases hmodePart
    exact ⟨hkeptEff, hkeptGaps⟩
  · intro hmode
    rw [runMode_autodetect hmode hin] at hmodePart
    cases hmodePart
    let ranged : State := { s with cfg := { s.cfg with rangeStart := 0, rangeEnd := s.cfg.inLen } }
    have hsame : histogram (started true s) 0 (s.cfg.inLen.toNat - (0 + 1)) =
        histogram (started false ranged) 0 (s.cfg.inLen.toNat - (0 + 1)) :=
      histogram_congr (s := started true s) (t := started false ranged) (fun _ => rfl) rfl _ _
    refine ⟨_, exec_modedet_of_ready (s := ranged) hrate (Nat.zero_le _) le_rfl hin, ?_, ?_⟩
    · refine hkeptEff.trans ?_
      simp only [storeMode_modeEff, finish_modeEff, mduEnd, hsame]
      rfl
    · refine hkeptGaps.trans ?_
      simp only [storeMode_modeFromGaps, finish_modeFromGaps, mduEnd, hsame]
      rfl

-- ---------------------------------------------------------------- RUN is RESAMPLE and then FRAME (R143)

/-- R136: RUN completes where its units do. -/
theorem exec_run_of_units {s a b c : State} (hrate : 200000 ≤ s.cfg.sampleRate.toNat) (hmode : s.cfg.mode ≠ 3)
    (hin : CaptureReady s) (ha : runMode (started true s) = .next a) (hb : rsuBody a = .next b)
    (hc : fsuBody b = .next c) : exec .run s = .next (finish c) :=
  calc exec .run s
      = withInput s.prologue 0 s.cfg.inLen.toNat
          (andThen (runMode (started true s)) fun s => andThen (rsuBody s) fun s => andThen (fsuBody s) fun s =>
            .next (finish s)) := (precheck_of_rate (s := s.prologue) hrate _).trans (if_neg hmode)
    _ = _ := by
      rw [withInput_of_ready (s := s.prologue) hin, andThen_of_eq ha, andThen_of_eq hb, andThen_of_eq hc]

/-- The registers that RUN's RSU and FSU leave aside, after RUN's mode part has made `a` of `s`. -/
def Aside.ofRun (s a : State) : Aside :=
  { Aside.started true s with modeEff := a.modeEff, modeFromGaps := a.modeFromGaps, mdu := a.mdu }

/-- RUN's RSU does what the RSU does on the state before the command. -/
theorem rsuBody_of_runMode {s a r : State} (ha : runMode (started true s) = .next a) (hr : rsuBody s = .next r) :
    rsuBody a = .next (r.withAside (Aside.ofRun s a)) := by
  have hbegin : rsuBody a = rsuBody (s.withAside (Aside.ofRun s a)) := by
    rw [runMode_only ha]
    rfl
  rw [hbegin]
  exact rsuBody_withAside hr

/-- RUN's FSU does what the FSU does in a FRAME after a RESAMPLE. -/
theorem fsuBody_of_frame {s a r f : State}
    (hf : fsuBody (started false (finish (r.withAside (Aside.started false s)))) = .next f) :
    fsuBody (r.withAside (Aside.ofRun s a)) = .next (f.withAside (Aside.ofRun s a)) :=
  fsuBody_withAside (s := started false (finish (r.withAside (Aside.started false s)))) (x := Aside.ofRun s a) hf

/-- Settles O48: RESAMPLE completes from the room in RS, FRAME from its RS and the room in EV; RUN's units do the same
from other values of the registers they leave aside. -/
theorem runIsResampleThenFrame : Obligations.RunIsResampleThenFrame := by
  intro s hrate hmode hin n hrs hev hcount hgood hlost herrors
  obtain ⟨r, hr, hready, hlen⟩ := rsuBody_of_ready hrate hin hrs
  let a := finish (r.withAside (Aside.started false s))
  have hrate' : 200000 ≤ a.cfg.sampleRate.toNat := by
    simp only [a]
    rw [rsuBody_only hr]
    exact hrate
  have hroom : FsuRoom (started false a) := by
    have hn : n = r.rsLen.toNat := hlen.symm
    rw [hn] at hev hcount hgood hlost herrors
    simp only [a]
    rw [rsuBody_only hr]
    exact ⟨hev, hcount, hgood, hlost, herrors⟩
  obtain ⟨f, l, hf, -⟩ := fsuBody_of_room (s := started false a) hready hroom
  obtain ⟨m, hm⟩ := exists_runMode hin true
  refine ⟨a, finish f, _, exec_resample_of_rsuBody hrate hin hr, exec_frame_of_fsuBody hrate' hready hf,
    exec_run_of_units hrate hmode hin hm (rsuBody_of_runMode hm hr) (fsuBody_of_frame hf), ?_⟩
  rw [fsuBody_only hf]
  rfl

end Sys2Proof.Machine
end

-- ==== a command is the run of its micro-operations ====
section
/-! Proofs that the single steps of a core inside a command (spec/30_encoding.md R8 (b), R103) go the same way as the
units' bodies, and that the hand-overs between the units lead to the state in which the command completes (spec/40_commands.md
R131, R136 to R141). -/

namespace Sys2Proof.Machine

-- ---------------------------------------------------------------- runs of the machine

/-- A step at the front of a run. -/
theorem coreRun_succ {M : Host.Core} {n : Nat} {s u : M.State} (h : M.step s = .next u) :
    M.run (n + 1) s = M.run n u := by
  rw [Host.Core.run, h]

/-- A run after a run. -/
theorem coreRun_add {M : Host.Core} {m n : Nat} {s u : M.State} (h : M.run m s = .next u) :
    M.run (m + n) s = M.run n u := by
  induction m generalizing s with
  | zero =>
    cases h
    rw [Nat.zero_add]
  | succ m ih =>
    cases hstep : M.step s with
    | next v =>
      rw [coreRun_succ hstep] at h
      rw [Nat.succ_add, coreRun_succ hstep, ih h]
    | fault r =>
      rw [Host.Core.run, hstep] at h
      cases h
    | refused r =>
      rw [Host.Core.run, hstep] at h
      cases h

/-- Some number of steps lead from `s` to `t`. -/
def Runs (s t : State) : Prop := ∃ n, Host.Core.run Sys2Proof.core n s = .next t

theorem Runs.refl (s : State) : Runs s s := ⟨0, rfl⟩

theorem Runs.trans {s u t : State} (hsu : Runs s u) (hut : Runs u t) : Runs s t := by
  obtain ⟨m, hm⟩ := hsu
  obtain ⟨n, hn⟩ := hut
  exact ⟨m + n, (coreRun_add hm).trans hn⟩

theorem Runs.head {s u t : State} (h : step s = .next u) (hrun : Runs u t) : Runs s t := by
  obtain ⟨n, hn⟩ := hrun
  exact ⟨n + 1, (coreRun_succ (M := Sys2Proof.core) h).trans hn⟩

section

variable {s t : State}

theorem NoReset.of_host_eq (h : NoReset s) (he : t.host = s.host) : NoReset t := by
  rwa [NoReset, he]

/-- Where no operation is selected, a busy core hands over. -/
theorem step_of_advance (hr : NoReset s) (ha : s.act ≠ .idle) (hnone : selectOp s = none) : step s = advance s := by
  simp only [step_busy hr ha, coreStep, hnone]

-- ---------------------------------------------------------------- the Mode Detector

theorem step_of_execMdGap (hr : NoReset s) (h : execMdGap s = .next t) : step s = .next t := by
  have hsel := (execMdGap_eq_next.1 h).1
  have hact := (selMdGap_iff.1 hsel).1
  exact ((stepRunsTheSelectedOperation s _ hr (selectOp_of_selMdGap hsel)).1 (by rw [hact]; nofun)).trans h

theorem step_of_execMdClassify (hr : NoReset s) (h : execMdClassify s = .next t) : step s = .next t := by
  have hsel := (execMdClassify_eq_next.1 h).1
  have hact := (selMdClassify_iff.1 hsel).1
  exact ((stepRunsTheSelectedOperation s _ hr (selectOp_of_selMdClassify hsel)).1 (by rw [hact]; nofun)).trans h

theorem mduLoop_runs {n : Nat} (hr : NoReset s) (h : mduLoop n s = .next t) : Runs s t ∧ NoReset t := by
  induction n generalizing s with
  | zero => cases h; exact ⟨.refl _, hr⟩
  | succ n ih =>
    obtain ⟨u, hgap, h⟩ := andThen_eq_next.1 h
    obtain ⟨hrun, ht⟩ := ih (hr.of_host_eq (by rw [(execMdGap_eq_next.1 hgap).2])) h
    exact ⟨hrun.head (step_of_execMdGap hr hgap), ht⟩

/-- R187, R136, R141: the MDU runs to its end and hands over to the RSU of RUN, or MODEDET completes. -/
theorem mduBody_runs {a e : Nat} (hr : NoReset s) (h : mduBody a e s = .next t) :
    Runs (mduBegin a e s) (if s.inRun then rsuBegin (storeMode t) else finish (storeMode t)) := by
  have honly := mduBody_only h
  obtain ⟨u, hloop, hclassify⟩ := andThen_eq_next.1 h
  obtain ⟨hrun, hu⟩ := mduLoop_runs (s := mduBegin a e s) hr hloop
  have hact : t.act = .mduDone := by rw [(execMdClassify_eq_next.1 hclassify).2]
  have ht : NoReset t := hr.of_host_eq (by rw [honly])
  have hinRun : t.inRun = s.inRun := by rw [honly]
  have hadvance : step t = .next (if s.inRun then rsuBegin (storeMode t) else finish (storeMode t)) := by
    rw [step_of_advance ht (by rw [hact]; nofun) (by simp only [selectOp, hact])]
    simp only [advance, hact, hinRun]
  exact hrun.trans (.head (step_of_execMdClassify hu hclassify) (.head hadvance (.refl _)))

-- ---------------------------------------------------------------- the Bit Resampler

theorem step_of_rsuStep (hr : NoReset s) (h : rsuStep s = .next t) : step s = .next t := by
  obtain ⟨hact, i, hi, hexec⟩ := selectOp_of_rsuExec (rsuStep_eq_next h)
  have hfdu : s.act ≠ .fdu := by
    rcases hact with hact | hact
    all_goals rw [hact]; nofun
  exact ((stepRunsTheSelectedOperation s i hr hi).1 hfdu).trans hexec

theorem rsuLoop_runs {n : Nat} (hr : NoReset s) (h : rsuLoop n s = .next t) : Runs s t := by
  induction n generalizing s with
  | zero => cases h; exact .refl _
  | succ n ih =>
    rw [rsuLoop] at h
    split at h
    case isTrue => cases h; exact .refl _
    case isFalse =>
      obtain ⟨u, hstep, h⟩ := andThen_eq_next.1 h
      have hu : NoReset u := hr.of_host_eq (by rw [rsuStep_only hstep])
      exact (ih hu h).head (step_of_rsuStep hr hstep)

/-- Past the last record the scan selects nothing (R153). -/
theorem selectOp_of_rsuDone (h : rsuDone s = true) : selectOp s = none := by
  obtain ⟨hact, hend⟩ := rsuDone_iff.1 h
  have hgap : scanGap s = none := if_neg fun hj => hend.not_gt hj.2
  simp [selectOp, hact, selRsScan, selRsStart, hgap]

/-- R163, R136, R137: the RSU runs to its end and hands over to the FSU of RUN, or RESAMPLE completes. -/
theorem rsuBody_runs (hr : NoReset s) (hc : RisingCapture s) (h : rsuBody s = .next t) :
    Runs (rsuBegin s) (if s.inRun then fsuBegin t else finish t) := by
  have honly := rsuBody_only h
  have hdone := (rsuWalk_rsuBegin hc).loop_done (rsuEffort_rsuBegin_le s) h
  have hact := (rsuDone_iff.1 hdone).1
  have ht : NoReset t := hr.of_host_eq (by rw [honly])
  have hinRun : t.inRun = s.inRun := by rw [honly]
  have hadvance : step t = .next (if s.inRun then fsuBegin t else finish t) := by
    rw [step_of_advance ht (by rw [hact]; nofun) (selectOp_of_rsuDone hdone)]
    simp only [advance, hact, hdone, if_true, hinRun]
  exact (rsuLoop_runs (s := rsuBegin s) hr h).trans (.head hadvance (.refl _))

-- ---------------------------------------------------------------- the Frame Synchronizer

theorem step_of_fsuStep (hr : NoReset s) (h : fsuStep s = .next t) : step s = .next t := by
  obtain ⟨hact, i, hi, hexec⟩ := selectOp_of_fsuExec (fsuStep_eq_next h)
  exact ((stepRunsTheSelectedOperation s i hr hi).1 (by rw [hact]; nofun)).trans hexec

/-- R223: a walk of `n` steps brings the index `n` records further. -/
theorem fsuLoop_runs {n : Nat} (hr : NoReset s) (h : fsuLoop n s = .next t) :
    Runs s t ∧ t.fsu.i = s.fsu.i + BitVec.ofNat 32 n := by
  induction n generalizing s with
  | zero => cases h; exact ⟨.refl _, (BitVec.add_zero _).symm⟩
  | succ n ih =>
    obtain ⟨u, hstep, h⟩ := andThen_eq_next.1 h
    have hu : NoReset u := hr.of_host_eq (by rw [fsuStep_only hstep])
    have hi : u.fsu.i = s.fsu.i + 1 := by rw [fsuStep_only hstep]
    obtain ⟨hrun, ht⟩ := ih hu h
    refine ⟨hrun.head (step_of_fsuStep hr hstep), ?_⟩
    rw [ht, hi, BitVec.ofNat_add, BitVec.add_assoc, BitVec.add_comm (BitVec.ofNat 32 n)]
    rfl

theorem fsuLoop_act {n : Nat} (ha : s.act = .fsuWalk) (h : fsuLoop n s = .next t) : t.act = .fsuWalk :=
  fsuLoop_keeps (fun x => x.act = .fsuWalk) (fun _ _ hx hy => by rw [fsuStep_only hy]; exact hx) h ha

/-- Past the last record the walk selects nothing (R203). -/
theorem selectOp_of_fsu_end (ha : s.act = .fsuWalk) (hend : s.fsu.i = s.rsLen) : selectOp s = none := by
  have hgap : syncGap s = none := if_neg (by rw [hend]; omega)
  have htail : ¬selFrTail s = true := fun h => by
    have hlast := (selFrTail_iff.1 h).2
    rw [hend] at hlast
    omega
  rw [selectOp_of_not_inSync ha (by simp [inSync, hgap]), if_neg (by simp [selFrDesync, hgap]), if_neg htail]

/-- R221, R136, R138: the FSU runs to its end, and FRAME or RUN completes. -/
theorem fsuBody_runs (hr : NoReset s) (h : fsuBody s = .next t) : Runs (fsuBegin s) (finish t) := by
  obtain ⟨u, hlabel, hloop⟩ := fsuBody_eq_next.1 h
  have honly := fsuBody_only h
  have hu := (execFrLabel_eq_next.1 hlabel).2.2
  have hur : NoReset u := hr.of_host_eq (by rw [hu]; rfl)
  have hfirst : step (fsuBegin s) = .next u :=
    ((stepRunsTheSelectedOperation (fsuBegin s) _ hr rfl).1 nofun).trans hlabel
  have huact : u.act = .fsuInit := by rw [hu]
  have hinit : step u = .next (fsuInit u) := by
    rw [step_of_advance hur (by rw [huact]; nofun) (by simp only [selectOp, huact])]
    simp only [advance, huact]
  obtain ⟨hwalk, hi⟩ := fsuLoop_runs (s := fsuInit u) hur hloop
  have hact := fsuLoop_act (s := fsuInit u) rfl hloop
  have hlen : u.rsLen = t.rsLen := by
    rw [hu, honly]
    rfl
  have hend : t.fsu.i = t.rsLen := by
    rw [hi, hlen]
    simp
  have ht : NoReset t := hr.of_host_eq (by rw [honly])
  have hdone : fsuDone t = true := by simp [fsuDone, hact, hend]
  have hlast : step t = .next (finish t) := by
    rw [step_of_advance ht (by rw [hact]; nofun) (selectOp_of_fsu_end hact hend)]
    simp only [advance, hact, hdone, if_true]
  exact .head hfirst (.head hinit (hwalk.trans (.head hlast (.refl _))))

-- ---------------------------------------------------------------- the commands

/-- RESAMPLE that raised nothing passed its checks and ran the RSU. -/
theorem execResample_of_no_err (h : exec .resample s = .next t) (herr : t.status.err = 0) :
    200000 ≤ s.cfg.sampleRate.toNat ∧ CaptureReady s ∧ ∃ b, rsuBody (started false s) = .next b ∧ t = finish b := by
  rcases precheck_eq_next.1 h with ⟨hrate, h⟩ | ⟨-, rfl⟩
  · obtain ⟨hfits, hall, h⟩ := withInput_eq_next.1 h
    obtain ⟨b, hb, h⟩ := andThen_eq_next.1 h
    cases h
    exact ⟨hrate, inputReady_of_checks (s := s.prologue) hfits hall, b, hb, rfl⟩
  · exact absurd herr (takeException_err_ne_zero _ _)

theorem resample_runs (hr : NoReset s) (herr : t.status.err = 0) (h : exec .resample s = .next t) :
    Runs (rsuBegin (started false s)) t := by
  obtain ⟨hrate, hin, b, hb, rfl⟩ := execResample_of_no_err h herr
  exact rsuBody_runs (s := started false s) hr (risingCapture_of_ready (s := started false s) hrate hin) hb

theorem frame_runs (hr : NoReset s) (herr : t.status.err = 0) (h : exec .frame s = .next t) :
    Runs (fsuBegin (started false s)) t := by
  rcases execFrame_eq_next h with ⟨-, rfl⟩ | ⟨b, hb, rfl⟩
  · exact absurd herr (takeException_err_ne_zero _ _)
  · exact fsuBody_runs (s := started false s) hr hb

theorem modedet_runs (hr : NoReset s) (herr : t.status.err = 0) (h : exec .modedet s = .next t) :
    Runs (mduBegin s.cfg.rangeStart.toNat s.cfg.rangeEnd.toNat (started false s)) t := by
  rcases execModedet_eq_next h with ⟨-, rfl⟩ | rfl | ⟨b, hb, rfl⟩
  · exact absurd herr (takeException_err_ne_zero _ _)
  · exact absurd herr (takeException_err_ne_zero _ _)
  · exact mduBody_runs (s := started false s) hr hb

/-- R136: the RSU and the FSU of RUN, from the state that its mode part left. -/
theorem runUnits_run {a b c : State} (hr : NoReset a) (hrun : a.inRun = true) (hc : RisingCapture a)
    (hrsu : rsuBody a = .next b) (hfsu : fsuBody b = .next c) : Runs (rsuBegin a) (finish c) := by
  have hfirst := rsuBody_runs hr hc hrsu
  rw [hrun] at hfirst
  have hb : NoReset b := hr.of_host_eq (by rw [rsuBody_only hrsu])
  exact hfirst.trans (fsuBody_runs hb hfsu)

theorem run_autodetect_runs (hr : NoReset s) (herr : t.status.err = 0) (h : exec .run s = .next t)
    (hmode : s.cfg.mode = 0) : Runs (mduBegin 0 s.cfg.inLen.toNat (started true s)) t := by
  obtain ⟨hrate, -, hin, a, b, c, hmodePart, hrsu, hfsu, rfl⟩ := execRun_of_no_err h herr
  rw [runMode_autodetect hmode hin] at hmodePart
  cases hmodePart
  have hmdu := mduBody_runs (s := started true s) hr (mduBody_of_rising (s := started true s) (hin.rising le_rfl))
  exact hmdu.trans (runUnits_run hr rfl (risingCapture_of_ready hrate hin) hrsu hfsu)

theorem run_forced_runs (hr : NoReset s) (herr : t.status.err = 0) (h : exec .run s = .next t)
    (hmode : s.cfg.mode ≠ 0) :
    Runs (rsuBegin { started true s with modeEff := s.cfg.mode, modeFromGaps := false }) t := by
  obtain ⟨hrate, -, hin, a, b, c, hmodePart, hrsu, hfsu, rfl⟩ := execRun_of_no_err h herr
  rw [runMode_forced hmode] at hmodePart
  cases hmodePart
  exact runUnits_run hr rfl (risingCapture_of_ready hrate hin) hrsu hfsu

end

/-- Settles O51: each command's units run one step per micro-operation, with their hand-overs. -/
theorem commandsAreTheirMicroOperations : Obligations.CommandsAreTheirMicroOperations :=
  fun _ _ hr herr => ⟨resample_runs hr herr, frame_runs hr herr, modedet_runs hr herr, run_autodetect_runs hr herr,
    run_forced_runs hr herr⟩

end Sys2Proof.Machine
end

-- ==== the Bit Resampler's operations ====
section
/-! Proofs about the six operations of the Bit Resampler (spec/41_resampler.md R154 to R160): what each one leaves where it
is selected, from what the bits of a frame are when they are emitted (R157). -/

namespace Sys2Proof.Machine

section

variable {s t : State} {b : Bool} {n : Nat}

-- ---------------------------------------------------------------- emitted bits

/-- R157: the emitted bits stand after the earlier records, at the uniform timestamps of the bits from COUNT on. -/
theorem appendedBits_of_emitBits (h : emitBits b n s = .next t) : AppendedBits s t b n := by
  refine ⟨(emitBits_eq_next h).1, fun q hq => ?_, fun a ha => ?_⟩
  · rw [rsAt_of_emitBits h, if_pos (by omega), Nat.add_sub_cancel_left, bitTime]
  · rw [rsAt_of_emitBits h, if_neg (by omega)]

/-- R14: one appended record is one bit more, where it has the timestamp of the bit at COUNT. -/
theorem appendedBits_one (hfits : fits s.par.rsCap (s.rsLen.toNat + 1) = true) :
    AppendedBits s { s with
      rsMem := s.rsMem.write s.rsLen.toNat { bit := b, ts := bitTime s s.rsu.count }
      rsLen := s.rsLen + 1 } b 1 := by
  refine ⟨toNat_add_one (lt_of_fits hfits), fun q hq => ?_, fun a ha => ?_⟩
  · obtain rfl : q = 0 := by omega
    exact (rsAt_write s _ _ _).trans (if_pos rfl)
  · exact (rsAt_write s _ _ _).trans (if_neg (by omega))

/-- The residual of a frame brings it to 300 bits and writes nothing but RS and COUNT (R158, R159). -/
theorem exists_emitResidual (b : Bool) (hcount : s.rsu.count < 300)
    (hfits : fits s.par.rsCap (s.rsLen.toNat + (300 - s.rsu.count)) = true) :
    ∃ t, emitBits b (300 - s.rsu.count) s = .next t ∧ AppendedBits s t b (300 - s.rsu.count) ∧
      t = { s with rsLen := t.rsLen, rsMem := t.rsMem, rsu := { s.rsu with count := 300 } } := by
  obtain ⟨t, hemit, -, -, -, ht⟩ := emitBits_of_fits b _ s (.inr hfits)
  rw [Nat.add_sub_cancel' hcount.le] at ht
  exact ⟨t, hemit, appendedBits_of_emitBits hemit, ht⟩

/-- R156: the number of bits that a gap of d ticks stands for, in what is left of the frame. -/
theorem edgeBits_of_edgeGap {d : Nat} (h : edgeGap s = some d) :
    edgeBits s = min ((2 * d + spb s) / (2 * spb s)) (300 - s.rsu.count) := by
  simp only [edgeBits, h, Option.getD_some, rnd, Config.frameBits]

/-- A gap above FRAME_GAP is a gap between rising timestamps. -/
theorem edgeGap_of_long (hlen : s.rsu.k.toNat + 1 < s.cfg.inLen.toNat)
    (hlong : 300 * spb s < (s.inAt (s.rsu.k.toNat + 1)).ts.toNat - (s.inAt s.rsu.k.toNat).ts.toNat) :
    edgeGap s = some ((s.inAt (s.rsu.k.toNat + 1)).ts.toNat - (s.inAt s.rsu.k.toNat).ts.toNat) :=
  edgeGap_of_lt hlen (by omega)

-- ---------------------------------------------------------------- the operations that emit bits

/-- R156: RS.EDGE where it is selected and RS has room for its bits. -/
theorem exists_execRsEdge {d : Nat} (hopen : frameOpen s = true) (hgap : edgeGap s = some d) (hle : d ≤ frameGap s)
    (hroom : edgeBits s = 0 ∨ fits s.par.rsCap (s.rsLen.toNat + edgeBits s) = true) :
    ∃ t, exec .rsEdge s = .next t ∧ AppendedBits s t (frameLevel s) (edgeBits s) ∧
      t = { s with
        rsLen := t.rsLen
        rsMem := t.rsMem
        rsu := { s.rsu with count := s.rsu.count + edgeBits s, k := s.rsu.k + 1 } } := by
  obtain ⟨u, hemit, -, -, -, hu⟩ := emitBits_of_fits (frameLevel s) (edgeBits s) s hroom
  have hbits := appendedBits_of_emitBits hemit
  refine ⟨_, execRsEdge_eq_next.2 ⟨selRsEdge_iff.2 ⟨hopen, d, hgap, hle⟩, u, hemit, rfl⟩, hbits, ?_⟩
  rw [hu]

/-- R158: RS.FILL where it is selected and RS has room for the residual. -/
theorem exists_execRsFill (hsel : selRsFill s = true)
    (hfits : fits s.par.rsCap (s.rsLen.toNat + (300 - s.rsu.count)) = true) :
    ∃ t, exec .rsFill s = .next t ∧ AppendedBits s t (frameLevel s) (300 - s.rsu.count) ∧
      t = { s with rsLen := t.rsLen, rsMem := t.rsMem, rsu := { s.rsu with count := 300 } } := by
  have hcount := (frameOpen_iff.1 (selRsFill_iff.1 hsel).1).2
  obtain ⟨t, hemit, hbits, ht⟩ := exists_emitResidual (frameLevel s) hcount hfits
  exact ⟨t, execRsFill_eq_next.2 ⟨hsel, hemit⟩, hbits, ht⟩

/-- R159: RS.CLIP where it is selected and RS has room for the residual. -/
theorem exists_execRsClip (hsel : selRsClip s = true)
    (hfits : fits s.par.rsCap (s.rsLen.toNat + (300 - s.rsu.count)) = true) :
    ∃ t, exec .rsClip s = .next t ∧ AppendedBits s t false (300 - s.rsu.count) ∧
      t = { s with rsLen := t.rsLen, rsMem := t.rsMem, rsu := { s.rsu with count := 300, clipped := true } } := by
  have hcount := (frameOpen_iff.1 (selRsClip_iff.1 hsel).1).2
  obtain ⟨t, hemit, hbits, ht⟩ :=
    exists_emitResidual (s := { s with rsu := { s.rsu with clipped := true } }) false hcount hfits
  exact ⟨t, execRsClip_eq_next.2 ⟨hsel, hemit⟩, hbits, ht⟩

end

-- ---------------------------------------------------------------- the obligations

/-- Settles O31: the gap of the pair at j selects the operation, and the operation's effect is its law. -/
theorem scanningFindsFrameStarts : Obligations.ScanningFindsFrameStarts := by
  rintro s a b hact hpos hlen rfl rfl hlt
  have hgap := scanGap_of_lt hpos hlen hlt
  constructor
  · intro hshort
    exact execRsScan_eq_next.2 ⟨selRsScan_iff.2 ⟨hact, _, hgap, hshort⟩, rfl⟩
  · intro hlong
    exact execRsStart_eq_next.2 ⟨selRsStart_iff.2 ⟨hact, _, hgap, hlong⟩, rfl⟩

/-- Settles O32: the rounded and clamped number of bits is `edgeBits`, and RS.EDGE emits that many. -/
theorem edgeExpandsItsLevel : Obligations.EdgeExpandsItsLevel := by
  rintro s a b hact hcount hlen rfl rfl hlt hshort
  have hgap := edgeGap_of_lt hlen hlt
  intro dt n hroom
  have hn : edgeBits s = n := edgeBits_of_edgeGap hgap
  rw [← hn] at hroom ⊢
  exact exists_execRsEdge (frameOpen_iff.2 ⟨hact, hcount⟩) hgap hshort hroom

/-- Settles O33: both residuals bring the frame to 300 bits; a gap gives RS.FILL, the end of the capture RS.CLIP. -/
theorem residualsPadToThreeHundred : Obligations.ResidualsPadToThreeHundred := by
  intro s hact hcount hfits
  have hopen : frameOpen s = true := frameOpen_iff.2 ⟨hact, hcount⟩
  constructor
  · rintro a b hlen rfl rfl hlong
    exact exists_execRsFill (selRsFill_iff.2 ⟨hopen, _, edgeGap_of_long hlen hlong, hlong⟩) hfits
  · intro hend
    exact exists_execRsClip (selRsClip_iff.2 ⟨hopen, hend⟩) hfits

/-- Settles O34: with COUNT = 300, the trailing record is the bit at COUNT, one bit period after bit 299. -/
theorem trailMarksTheFrameEnd : Obligations.TrailMarksTheFrameEnd := by
  intro s hact hcount hfits
  have hbit : AppendedBits s _ false 1 := appendedBits_one hfits
  rw [hcount] at hbit
  exact ⟨_, execRsTrail_eq_next.2 ⟨selRsTrail_iff.2 ⟨hact, hcount⟩, hfits, rfl⟩, hbit, rfl⟩

end Sys2Proof.Machine
end

-- ==== the Mode Detector's operations ====
section
/-! Proofs about the two operations of the Mode Detector (spec/42_mode_detector.md R181 to R185). -/

namespace Sys2Proof.Machine

/-- R184 with the distances as the spec writes them, as absolute values. -/
theorem classify_eq_abs (rate g : Nat) :
    classify rate g = if |(1000 * g : Int) - 14 * rate| < |(1000 * g : Int) - 7 * rate| then 1 else 2 := by
  simp only [classify, Int.abs_eq_natAbs, Nat.cast_lt]

/-- R185: a gap is strictly closer to 14 ms than to 7 ms exactly when it is longer than 10.5 ms. -/
theorem closer_to_fourteen_iff {rate : Nat} (hrate : 0 < rate) (g : Nat) :
    |(1000 * g : Int) - 14 * rate| < |(1000 * g : Int) - 7 * rate| ↔ 2000 * g > 21 * rate := by
  rw [Int.abs_eq_natAbs, Int.abs_eq_natAbs]
  omega

/-- Settles O37: the selected pair's gap is the one that MD.GAP tallies, and a tally changes the count of a long gap
only. -/
theorem longGapsAreTallied : Obligations.LongGapsAreTallied := by
  rintro s a b hact hpos hlt rfl rfl hrise
  intro dt
  have hgap : pairGap s = some dt := pairGap_of_lt hpos hlt hrise
  refine ⟨tally s.cfg.sampleRate.toNat dt s.mdu.hist, ?_, ?_, ?_⟩
  · refine execMdGap_eq_next.2 ⟨selMdGap_iff.2 ⟨hact, dt, hgap⟩, ?_⟩
    rw [hgap, Option.getD_some]
  · intro hshort
    exact if_neg hshort
  · intro hlong
    refine ⟨?_, fun x hx => ?_⟩
    · rw [tally_read, if_pos ⟨hlong, rfl⟩]
    · rw [tally_read, if_neg fun h => hx h.2]

/-- Settles O38: G is `chosenGap`, which is 0 on an empty histogram and otherwise a most frequent gap. -/
theorem classificationFollowsTheMostFrequentGap : Obligations.ClassificationFollowsTheMostFrequentGap := by
  intro s hact hend hwf
  refine ⟨chosenGap s.par.modeTie s.mdu.hist, ?_, fun hrate => closer_to_fourteen_iff hrate _, ?_, ?_⟩
  · have hany : (!s.mdu.hist.isEmpty) = decide (s.mdu.hist ≠ []) := by
      cases s.mdu.hist <;> rfl
    refine execMdClassify_eq_next.2 ⟨selMdClassify_iff.2 ⟨hact, hend⟩, ?_⟩
    rw [classify_eq_abs, hany]
  · intro hnone
    rw [hnone]
    rfl
  · intro hsome
    exact chosenGap_spec hwf hsome s.par.modeTie

end Sys2Proof.Machine
end

-- ==== CONFIG.MODE and the units ====
section
/-! Proofs that CONFIG.MODE has no effect on the RSU, the FSU, the FDU and the MDU (spec/42_mode_detector.md R186,
spec/30_encoding.md R104): they make the same state but for MODE, and stop where they would stop and for the same reason. -/

namespace Sys2Proof.Machine

/-- `s` with another CONFIG.MODE. -/
def State.withMode (m : BitVec 2) (s : State) : State := { s with cfg := { s.cfg with mode := m } }

/-- The answer `o` with another CONFIG.MODE in its next state. -/
def Out.withMode (m : BitVec 2) (o : Out) : Out := andThen o fun s => .next (s.withMode m)

/-- CONFIG.MODE has no effect on what `f` does: under another MODE it answers the same but for MODE itself. -/
def ModeBlind (f : State → Out) : Prop := ∀ (m : BitVec 2) (s : State), f (s.withMode m) = (f s).withMode m

theorem Out.withMode_andThen (m : BitVec 2) (o : Out) (f : State → Out) :
    (andThen o f).withMode m = andThen o fun s => (f s).withMode m :=
  andThen_assoc o f _

-- ---------------------------------------------------------------- the forms that operations are written in

section

variable {f g : State → Out}

theorem ModeBlind.next_of_next (hf : ModeBlind f) (m : BitVec 2) {s t : State} (h : f s = .next t) :
    f (s.withMode m) = .next (t.withMode m) := by
  rw [hf, h]
  rfl

theorem ModeBlind.refused_of_refused (hf : ModeBlind f) (m : BitVec 2) {s : State} {r : Refusal}
    (h : f s = .refused r) : f (s.withMode m) = .refused r := by
  rw [hf, h]
  rfl

theorem ModeBlind.refused (r : Refusal) : ModeBlind fun _ => .refused r :=
  fun _ _ => rfl

/-- An update of the state that neither reads nor writes MODE. -/
theorem ModeBlind.next {u : State → State} (hu : ∀ m s, u (s.withMode m) = (u s).withMode m) :
    ModeBlind fun s => .next (u s) :=
  fun m s => congrArg Host.Outcome.next (hu m s)

theorem ModeBlind.comp {u : State → State} (hu : ∀ m s, u (s.withMode m) = (u s).withMode m) (hf : ModeBlind f) :
    ModeBlind fun s => f (u s) :=
  fun m s => (congrArg f (hu m s)).trans (hf m (u s))

/-- An operand read from the state, where the reading does not see MODE. -/
theorem ModeBlind.operand {α : Type} {a : State → α} {f : α → State → Out} (ha : ∀ m s, a (s.withMode m) = a s)
    (hf : ∀ x, ModeBlind (f x)) : ModeBlind fun s => f (a s) s :=
  fun m s => (congrArg (f · (s.withMode m)) (ha m s)).trans (hf (a s) m s)

theorem ModeBlind.andThen (hf : ModeBlind f) (hg : ModeBlind g) : ModeBlind fun s => andThen (f s) g := by
  intro m s
  have hrest : (fun u => g (u.withMode m)) = fun u => (g u).withMode m := funext (hg m)
  calc Machine.andThen (f (s.withMode m)) g
      = Machine.andThen (f s) fun u => g (u.withMode m) := by rw [hf, Out.withMode, andThen_assoc]; rfl
    _ = (Machine.andThen (f s) g).withMode m := by rw [hrest, Out.withMode_andThen]

theorem ModeBlind.ite {p : State → Prop} [DecidablePred p] (hp : ∀ m s, p (s.withMode m) ↔ p s)
    (hf : ModeBlind f) (hg : ModeBlind g) : ModeBlind fun s => if p s then f s else g s := by
  intro m s
  by_cases h : p s
  · simp only [if_pos h, if_pos ((hp m s).2 h), hf m s]
  · simp only [if_neg h, if_neg (mt (hp m s).1 h), hg m s]

theorem ModeBlind.whenSelected {sel : State → Bool} {name : String} (hsel : ∀ m s, sel (s.withMode m) = sel s)
    (hf : ModeBlind f) : ModeBlind fun s => whenSelected (sel s) name (f s) :=
  .ite (fun m s => by rw [hsel]) hf (.refused _)

theorem ModeBlind.counterUp {c : State → Word} {f : Word → State → Out} (hc : ∀ m s, c (s.withMode m) = c s)
    (hf : ∀ w, ModeBlind (f w)) : ModeBlind fun s => counterUp (c s) fun w => f w s :=
  .ite (fun m s => by rw [hc]) (.operand (a := fun s => c s + 1) (fun m s => by rw [hc]) hf) (.refused _)

end

-- ---------------------------------------------------------------- the memories and the Bit Resampler

theorem appendRs_modeBlind (r : RsRec) : ModeBlind (appendRs r) :=
  .ite (fun _ _ => Iff.rfl) (.next fun _ _ => rfl) (.refused _)

theorem appendEv_modeBlind (e : EvRec) : ModeBlind (appendEv e) :=
  .ite (fun _ _ => Iff.rfl) (.next fun _ _ => rfl) (.refused _)

theorem appendBits_modeBlind (b : Bool) (n k : Nat) : ModeBlind (appendBits b n k) := by
  induction n generalizing k with
  | zero => exact .next fun _ _ => rfl
  | succ n ih =>
    have happend : ModeBlind fun s => appendRs { bit := b, ts := bitTime s k } s :=
      .operand (fun _ _ => rfl) appendRs_modeBlind
    exact happend.andThen (ih (k + 1))

theorem emitBits_modeBlind (b : Bool) (n : Nat) : ModeBlind (emitBits b n) :=
  have hbits : ModeBlind fun s => appendBits b n s.rsu.count s :=
    .operand (fun _ _ => rfl) (appendBits_modeBlind b n)
  hbits.andThen (.next fun _ _ => rfl)

/-- Emitted bits whose level and number the state gives. -/
theorem emitBits_operands_modeBlind {b : State → Bool} {n : State → Nat} (hb : ∀ m s, b (s.withMode m) = b s)
    (hn : ∀ m s, n (s.withMode m) = n s) : ModeBlind fun s => emitBits (b s) (n s) s :=
  .operand (a := fun s => (b s, n s)) (f := fun x => emitBits x.1 x.2) (fun m s => by rw [hb, hn])
    fun _ => emitBits_modeBlind _ _

theorem execRsScan_modeBlind : ModeBlind execRsScan :=
  .whenSelected (fun _ _ => rfl) (.next fun _ _ => rfl)

theorem execRsStart_modeBlind : ModeBlind execRsStart :=
  .whenSelected (fun _ _ => rfl) (.next fun _ _ => rfl)

theorem execRsEdge_modeBlind : ModeBlind execRsEdge :=
  .whenSelected (fun _ _ => rfl)
    (.andThen (emitBits_operands_modeBlind (fun _ _ => rfl) fun _ _ => rfl) (.next fun _ _ => rfl))

theorem execRsFill_modeBlind : ModeBlind execRsFill :=
  .whenSelected (fun _ _ => rfl) (emitBits_operands_modeBlind (fun _ _ => rfl) fun _ _ => rfl)

theorem execRsClip_modeBlind : ModeBlind execRsClip :=
  .whenSelected (fun _ _ => rfl)
    (.operand (a := fun s => Config.frameBits - s.rsu.count) (fun _ _ => rfl) fun n =>
      .comp (u := fun s => { s with rsu := { s.rsu with clipped := true } }) (fun _ _ => rfl) (emitBits_modeBlind false n))

theorem execRsTrail_modeBlind : ModeBlind execRsTrail :=
  .whenSelected (fun _ _ => rfl)
    (.andThen (.operand (fun _ _ => rfl) appendRs_modeBlind) (.next fun _ _ => rfl))

theorem rsuStep_modeBlind : ModeBlind rsuStep :=
  .ite (fun _ _ => Iff.rfl) execRsScan_modeBlind <|
  .ite (fun _ _ => Iff.rfl) execRsStart_modeBlind <|
  .ite (fun _ _ => Iff.rfl) execRsEdge_modeBlind <|
  .ite (fun _ _ => Iff.rfl) execRsFill_modeBlind <|
  .ite (fun _ _ => Iff.rfl) execRsClip_modeBlind <|
  .ite (fun _ _ => Iff.rfl) execRsTrail_modeBlind (.refused _)

theorem rsuLoop_modeBlind (n : Nat) : ModeBlind (rsuLoop n) := by
  induction n with
  | zero => exact .next fun _ _ => rfl
  | succ n ih => exact .ite (fun _ _ => Iff.rfl) (.next fun _ _ => rfl) (rsuStep_modeBlind.andThen ih)

theorem rsuBody_modeBlind : ModeBlind rsuBody :=
  .operand (a := fun s => 4 * s.cfg.inLen.toNat) (f := fun n s => rsuLoop n (rsuBegin s)) (fun _ _ => rfl)
    fun n => .comp (fun _ _ => rfl) (rsuLoop_modeBlind n)

-- ---------------------------------------------------------------- the Frame Decoder

theorem execDecErr_modeBlind : ModeBlind execDecErr :=
  .whenSelected (fun _ _ => rfl) (.counterUp (fun _ _ => rfl) fun _ => .next fun _ _ => rfl)

theorem execDecGood_modeBlind : ModeBlind execDecGood :=
  .whenSelected (fun _ _ => rfl) (.counterUp (fun _ _ => rfl) fun _ => .next fun _ _ => rfl)

theorem execDecLost_modeBlind : ModeBlind execDecLost :=
  .whenSelected (fun _ _ => rfl) (.counterUp (fun _ _ => rfl) fun _ => .next fun _ _ => rfl)

theorem execDecFs_modeBlind : ModeBlind execDecFs :=
  .whenSelected (fun _ _ => rfl) (.next fun _ _ => rfl)

/-- On an error frame the first channel operation is already refused. -/
theorem decChannels_of_not_valid {s : State} (h : ¬frameValid s.fb = true) :
    decChannels s = .refused (.notSelected "DEC.CH1") := by
  have hfirst : execDecCh1 s = .refused (.notSelected "DEC.CH1") := if_neg h
  rw [decChannels, hfirst]
  rfl

theorem decChannels_modeBlind : ModeBlind decChannels := by
  intro m s
  by_cases hvalid : frameValid s.fb = true
  · rw [decChannels_of_valid hvalid, decChannels_of_valid (s := s.withMode m) hvalid]
    rfl
  · rw [decChannels_of_not_valid hvalid, decChannels_of_not_valid (s := s.withMode m) hvalid]
    rfl

theorem execDecOk_modeBlind : ModeBlind execDecOk :=
  have hlost : ModeBlind fun s => if flagBit s.fb 5 then execDecLost s else .next s :=
    .ite (fun _ _ => Iff.rfl) execDecLost_modeBlind (.next fun _ _ => rfl)
  .whenSelected (fun _ _ => rfl)
    (execDecGood_modeBlind.andThen (decChannels_modeBlind.andThen (hlost.andThen execDecFs_modeBlind)))

theorem fdu_modeBlind : ModeBlind fdu :=
  .ite (fun _ _ => Iff.rfl) execDecOk_modeBlind execDecErr_modeBlind

-- ---------------------------------------------------------------- the Frame Synchronizer

theorem completeWord_modeBlind {rest : State → Out} (hrest : ModeBlind rest) :
    ModeBlind fun s => completeWord s rest :=
  have hevent : ModeBlind fun s =>
      appendEv (byteEvent s (nextRaw s)) (s.setFb s.fsu.bytecnt.toNat (dataByte (nextRaw s))) :=
    .operand (a := fun s => byteEvent s (nextRaw s)) (fun _ _ => rfl) fun e =>
      .comp (u := fun s => s.setFb s.fsu.bytecnt.toNat (dataByte (nextRaw s))) (fun _ _ => rfl) (appendEv_modeBlind e)
  hevent.andThen (.comp (fun _ _ => rfl) hrest)

theorem closeFrame_modeBlind : ModeBlind closeFrame :=
  .operand (a := lossPct) (fun _ _ => rfl) fun lp =>
    .andThen (.operand (a := fun s => frameEvent s lp) (fun _ _ => rfl) appendEv_modeBlind)
      (.next (u := fun s => { s.clearFb with prevLoss := lp, fsu := { s.fsu with bytecnt := 0 } }) fun _ _ => rfl)

theorem execFrLabel_modeBlind : ModeBlind execFrLabel :=
  .whenSelected (fun _ _ => rfl)
    (.andThen (.operand (fun _ _ => rfl) appendEv_modeBlind) (.next fun _ _ => rfl))

theorem execFrShift_modeBlind : ModeBlind execFrShift :=
  .whenSelected (fun _ _ => rfl) (.next fun _ _ => rfl)

theorem execFrWord_modeBlind : ModeBlind execFrWord :=
  .whenSelected (fun _ _ => rfl) (completeWord_modeBlind (.next fun _ _ => rfl))

theorem execFrFrame_modeBlind : ModeBlind execFrFrame :=
  .whenSelected (fun _ _ => rfl) (completeWord_modeBlind (.counterUp (fun _ _ => rfl) fun c =>
    .andThen (.comp (u := fun s => { s with frameCount := c }) (fun _ _ => rfl) fdu_modeBlind)
      (closeFrame_modeBlind.andThen (.next fun _ _ => rfl))))

theorem execFrDesync_modeBlind : ModeBlind execFrDesync :=
  .whenSelected (fun _ _ => rfl) (.next fun _ _ => rfl)

theorem execFrTail_modeBlind : ModeBlind execFrTail :=
  .whenSelected (fun _ _ => rfl) (.next fun _ _ => rfl)

theorem fsuStep_modeBlind : ModeBlind fsuStep :=
  .ite (fun _ _ => Iff.rfl) execFrShift_modeBlind <|
  .ite (fun _ _ => Iff.rfl) execFrWord_modeBlind <|
  .ite (fun _ _ => Iff.rfl) execFrFrame_modeBlind <|
  .ite (fun _ _ => Iff.rfl) execFrDesync_modeBlind <|
  .ite (fun _ _ => Iff.rfl) execFrTail_modeBlind (.refused _)

theorem fsuLoop_modeBlind (n : Nat) : ModeBlind (fsuLoop n) := by
  induction n with
  | zero => exact .next fun _ _ => rfl
  | succ n ih => exact fsuStep_modeBlind.andThen ih

theorem fsuBody_modeBlind : ModeBlind fsuBody :=
  have hwalk : ModeBlind fun s => fsuLoop s.rsLen.toNat (fsuInit s) :=
    .operand (a := fun s => s.rsLen.toNat) (f := fun n s => fsuLoop n (fsuInit s)) (fun _ _ => rfl)
      fun n => .comp (fun _ _ => rfl) (fsuLoop_modeBlind n)
  .andThen (.comp (u := fsuBegin) (fun _ _ => rfl) execFrLabel_modeBlind) hwalk

-- ---------------------------------------------------------------- the Mode Detector

theorem execMdGap_modeBlind : ModeBlind execMdGap :=
  .whenSelected (fun _ _ => rfl) (.next fun _ _ => rfl)

theorem execMdClassify_modeBlind : ModeBlind execMdClassify :=
  .whenSelected (fun _ _ => rfl) (.next fun _ _ => rfl)

theorem mduLoop_modeBlind (n : Nat) : ModeBlind (mduLoop n) := by
  induction n with
  | zero => exact .next fun _ _ => rfl
  | succ n ih => exact execMdGap_modeBlind.andThen ih

theorem mduBody_modeBlind (a e : Nat) : ModeBlind (mduBody a e) :=
  .andThen (.comp (u := mduBegin a e) (fun _ _ => rfl) (mduLoop_modeBlind _)) execMdClassify_modeBlind

-- ---------------------------------------------------------------- the commands without a mode part

section

variable {body : State → Out}

theorem raise_modeBlind (e : Exc) : ModeBlind (raise e) :=
  .next fun _ _ => rfl

theorem precheck_modeBlind (hbody : ModeBlind body) : ModeBlind fun s => precheck s (body s) :=
  .ite (fun _ _ => Iff.rfl) hbody (raise_modeBlind _)

theorem withInput_modeBlind {a e : State → Nat} (ha : ∀ m s, a (s.withMode m) = a s)
    (he : ∀ m s, e (s.withMode m) = e s) (hbody : ModeBlind body) :
    ModeBlind fun s => withInput s (a s) (e s) (body s) :=
  have hrising : ∀ m s, inputOkAt (s.withMode m) (a (s.withMode m)) (e (s.withMode m)) = inputOkAt s (a s) (e s) :=
    fun m s => by rw [ha, he]; rfl
  .ite (fun _ _ => Iff.rfl) (.refused _) (.ite (fun m s => by rw [hrising]; rfl) (.refused _) hbody)

theorem withResampled_modeBlind (hbody : ModeBlind body) : ModeBlind fun s => withResampled s (body s) :=
  .ite (fun _ _ => Iff.rfl) (.refused _) (.ite (fun _ _ => Iff.rfl) (.refused _) hbody)

/-- A command works on the state that its prologue leaves. -/
theorem command_modeBlind (hbody : ModeBlind body) : ModeBlind fun s => body s.prologue :=
  hbody.comp fun _ _ => rfl

/-- A command ends where its unit does. -/
theorem finish_modeBlind (hbody : ModeBlind body) : ModeBlind fun s => andThen (body s) fun s => .next (finish s) :=
  hbody.andThen (.next fun _ _ => rfl)

end

theorem execResample_modeBlind : ModeBlind execResample :=
  have hunit : ModeBlind fun s => rsuBody { s with inRun := false } := rsuBody_modeBlind.comp fun _ _ => rfl
  command_modeBlind (precheck_modeBlind (withInput_modeBlind (a := fun _ => 0) (e := fun s => s.cfg.inLen.toNat)
    (fun _ _ => rfl) (fun _ _ => rfl) (finish_modeBlind hunit)))

theorem execFrame_modeBlind : ModeBlind execFrame :=
  have hunit : ModeBlind fun s => fsuBody { s with inRun := false } := fsuBody_modeBlind.comp fun _ _ => rfl
  command_modeBlind (precheck_modeBlind (withResampled_modeBlind (finish_modeBlind hunit)))

theorem execDecode_modeBlind : ModeBlind execDecode :=
  command_modeBlind (.ite (p := fun s => s.cfg.fbLen.toNat ≠ Config.frameBytes) (fun _ _ => Iff.rfl)
    (raise_modeBlind _) (fdu_modeBlind.andThen (.next (u := State.epilogue) fun _ _ => rfl)))

theorem execModedet_modeBlind : ModeBlind execModedet :=
  have hunit : ModeBlind fun s =>
      mduBody s.cfg.rangeStart.toNat s.cfg.rangeEnd.toNat { s with inRun := false } :=
    .operand (a := fun s => (s.cfg.rangeStart.toNat, s.cfg.rangeEnd.toNat))
      (f := fun r s => mduBody r.1 r.2 { s with inRun := false }) (fun _ _ => rfl)
      fun r => (mduBody_modeBlind r.1 r.2).comp fun _ _ => rfl
  command_modeBlind (precheck_modeBlind (.ite
    (p := fun s => ¬(s.cfg.rangeStart.toNat ≤ s.cfg.rangeEnd.toNat ∧ s.cfg.rangeEnd.toNat ≤ s.cfg.inLen.toNat))
    (fun _ _ => Iff.rfl) (raise_modeBlind _)
    (withInput_modeBlind (a := fun s => s.cfg.rangeStart.toNat) (e := fun s => s.cfg.rangeEnd.toNat)
      (fun _ _ => rfl) (fun _ _ => rfl)
      (hunit.andThen (.next (u := fun s => finish (storeMode s)) fun _ _ => rfl)))))

/-- R104, R186: none of these four commands sees CONFIG.MODE. -/
theorem exec_modeBlind {i : Instr} (hi : i ∈ [Instr.resample, .frame, .decode, .modedet]) : ModeBlind (exec i) := by
  simp only [List.mem_cons, List.not_mem_nil, or_false] at hi
  rcases hi with rfl | rfl | rfl | rfl
  · exact execResample_modeBlind
  · exact execFrame_modeBlind
  · exact execDecode_modeBlind
  · exact execModedet_modeBlind

-- ---------------------------------------------------------------- RUN under another mode

/-- R186: the RSU of RUN does the same whatever MODE and whatever the mode part of RUN left in MODE_RESULT. -/
theorem rsuBody_of_other_mode {s a a' b : State} {m : BitVec 2} (ha : runMode (started true s) = .next a)
    (ha' : runMode (started true (s.withMode m)) = .next a') (hb : rsuBody a = .next b) :
    rsuBody a' = .next (b.withAside (Aside.ofRun (s.withMode m) a')) := by
  have hbegin : rsuBody a' = rsuBody (a.withAside (Aside.ofRun (s.withMode m) a')) := by
    rw [runMode_only ha', runMode_only ha]
    rfl
  rw [hbegin]
  exact rsuBody_withAside hb

/-- R186: RUN that raised nothing completes under another legal MODE, and makes the same of all that its RSU and FSU do not
leave aside. -/
theorem exec_run_of_other_mode {s t : State} {m : BitVec 2} (h : exec .run s = .next t) (herr : t.status.err = 0)
    (hm : m ≠ 3) : ∃ t', exec .run (s.withMode m) = .next t' ∧ t' = { t with
      cfg := { s.cfg with mode := m }
      modeEff := t'.modeEff
      modeFromGaps := t'.modeFromGaps
      mdu := t'.mdu } := by
  obtain ⟨hrate, -, hin, a, b, c, ha, hb, hc, rfl⟩ := execRun_of_no_err h herr
  obtain ⟨a', ha'⟩ := exists_runMode (s := s.withMode m) hin true
  refine ⟨_, exec_run_of_units (s := s.withMode m) hrate hm hin ha' (rsuBody_of_other_mode ha ha' hb)
    (fsuBody_withAside hc), ?_⟩
  rw [fsuBody_only hc, rsuBody_only hb, runMode_only ha]
  rfl

/-- Settles O50: RUN's units leave MODE and MODE_RESULT aside, and the other commands do not see MODE. -/
theorem modeChangesNothingElse : Obligations.ModeChangesNothingElse :=
  ⟨fun _ _ _ h herr hm => exec_run_of_other_mode h herr hm,
    fun _ m _ hi => ⟨fun _ h => (exec_modeBlind hi).next_of_next m h,
      fun _ h => (exec_modeBlind hi).refused_of_refused m h⟩⟩

end Sys2Proof.Machine
end

-- ==== the Frame Synchronizer's operations, and the progress of a pass ====
section
/-! Proofs about the six operations of the Frame Synchronizer (spec/43_framer.md R201 to R219): what each one leaves where it
is selected, which one is selected, and the progress values of a whole pass (R218, R223). -/

namespace Sys2Proof.Machine

-- ---------------------------------------------------------------- words and their events

/-- R204: the bit in its place, the first in time highest. -/
theorem shiftIn_eq (raw : W12) (b : Bool) (c : BitVec 4) :
    shiftIn raw b c = raw ||| (BitVec.ofNat 12 b.toNat <<< (11 - c.toNat)) := by
  cases b <;> rfl

/-- R205: the twelfth bit is the lowest. -/
theorem shiftIn_last (raw : W12) (b : Bool) {c : BitVec 4} (hc : c.toNat = 11) :
    shiftIn raw b c = raw ||| BitVec.ofNat 12 b.toNat := by
  rw [shiftIn_eq, hc, Nat.sub_self, BitVec.shiftLeft_zero]

/-- R206: the data field starts at bit 3 of the word. -/
theorem dataByte_eq (raw : W12) : dataByte raw = BitVec.ofNat 8 (raw.toNat / 8) := by
  apply BitVec.eq_of_toNat_eq
  rw [dataByte, BitVec.toNat_setWidth, BitVec.toNat_ushiftRight, Nat.shiftRight_eq_div_pow, BitVec.toNat_ofNat]

/-- R212: there are two bit orders. -/
theorem evconv_eq (o : Config.BitOrder) (w : W12) : evconv o w = if o = .msbFirst then w else w.reverse := by
  cases o <;> rfl

section

variable {s t : State}

/-- R211, with the value's conversion written out. -/
theorem byteEvent_eq (s : State) (raw : W12) :
    byteEvent s raw =
      { kind := .byte, line := s.cfg.chIndex, startIdx := s.fsu.byteStart, endIdx := s.fsu.i + 1,
        startTime := (s.rsAt s.fsu.byteStart.toNat).ts, endTime := (s.rsAt (s.fsu.i.toNat + 1)).ts,
        value := if s.par.evBitOrder = .msbFirst then raw else raw.reverse } := by
  rw [byteEvent, evconv_eq]

-- ---------------------------------------------------------------- the forward gap

/-- R203: a sample is in sync where the next one follows within a bit period. -/
theorem inSync_of_inSyncAt {r r' : RsRec} (h : InSyncAt s r r') : inSync s = true := by
  obtain ⟨hact, hlt, rfl, rfl, hrise, hshort⟩ := h
  exact inSync_iff.2 ⟨hact, _, syncGap_of_lt hlt hrise, hshort⟩

/-- R217: a successor more than a bit period away selects FR.DESYNC. -/
theorem selFrDesync_of_long (hact : s.act = .fsuWalk) (hlt : s.fsu.i.toNat + 1 < s.rsLen.toNat)
    (hlong : spb s < (s.rsAt (s.fsu.i.toNat + 1)).ts.toNat - (s.rsAt s.fsu.i.toNat).ts.toNat) :
    selFrDesync s = true :=
  selFrDesync_iff.2 ⟨hact, _, syncGap_of_lt hlt (by omega), hlong⟩

-- ---------------------------------------------------------------- the frame's hand-over

/-- R271: what the FDU makes of the decoder state, for either kind of frame. -/
theorem exists_fdu_decoded
    (hvalid : ValidFrame s.fb → countsLeft s.dec.good 1 ∧ ((fbAt s.fb 23).getLsbD 5 = true → countsLeft s.dec.lost 1))
    (herror : ¬ValidFrame s.fb → countsLeft s.dec.errors 1) :
    ∃ d, (ValidFrame s.fb → DecodedBy s.fb s.dec d) ∧
      (¬ValidFrame s.fb → d = { s.dec with errors := s.dec.errors + 1 }) ∧ fdu s = .next { s with dec := d } := by
  by_cases hv : ValidFrame s.fb
  · obtain ⟨hgood, hlost⟩ := hvalid hv
    exact ⟨_, fun _ => decodedBy_decodedOf _ _, fun hn => absurd hv hn, fdu_of_valid hv hgood hlost⟩
  · exact ⟨_, fun h => absurd h hv, fun _ => rfl, fdu_of_not_valid hv (herror hv)⟩

/-- R213 to R216: FR.FRAME around a decode that leaves `d`; percentage, tag and snapshot are those of `d`. -/
theorem execFrFrame_of_fdu {d : Decoded} (hsel : selFrFrame s = true)
    (hfits : fits s.par.evCap (s.ev.length + 2) = true) (hcount : countsLeft s.frameCount 1)
    (hfdu : fdu (frameHanded s) = .next { frameHanded s with dec := d }) :
    execFrFrame s = .next { s with
      dec := d
      frameCount := s.frameCount + 1
      prevLoss := lossPct { s with dec := d }
      fb := Vector.replicate 25 0
      ev := s.ev ++ [byteEvent s (nextRaw s), frameEvent { s with dec := d } (lossPct { s with dec := d })]
      fsu := { s.fsu with raw := 0, bitcnt := 0, bytecnt := 0, i := s.fsu.i + 1 }
      progress := stepProgress s
      prog := s.prog ++ [stepProgress s] } := by
  have hclose : fits s.par.evCap ((s.ev ++ [byteEvent s (nextRaw s)]).length + 1) = true := by
    rwa [List.length_append, List.length_singleton]
  refine execFrFrame_eq_next.2 ⟨hsel, fits_mono hfits (Nat.le_succ _), hcount, _, _, hfdu,
    closeFrame_eq_next.2 ⟨hclose, rfl⟩, ?_⟩
  rw [← List.singleton_append (l := [frameEvent _ _]), ← List.append_assoc]
  rfl

-- ---------------------------------------------------------------- the progress of a pass

/-- R218: the step that brings the index to the end reports 100. -/
theorem progressPct_self {n : Nat} (hn : 0 < n) : progressPct n n = 100 := by
  rw [progressPct, Nat.mul_div_cancel _ hn]
  rfl

/-- R218, R223: each step of the walk reports the index that it reaches, and PROGRESS mirrors the last report (R42). -/
theorem fsuLoop_progress {n : Nat} (h : fsuLoop n s = .next t) (hn : s.fsu.i.toNat + n ≤ s.rsLen.toNat) :
    t.prog = s.prog ++ (List.range' (s.fsu.i.toNat + 1) n).map (fun k => progressPct k s.rsLen.toNat) ∧
    t.progress = if n = 0 then s.progress else progressPct (s.fsu.i.toNat + n) s.rsLen.toNat := by
  induction n generalizing s with
  | zero =>
    cases h
    exact ⟨(List.append_nil _).symm, rfl⟩
  | succ n ih =>
    obtain ⟨u, hstep, hloop⟩ := andThen_eq_next.1 h
    have honly := fsuStep_only hstep
    have hlen : u.rsLen = s.rsLen := by rw [honly]
    have hi : u.fsu.i.toNat = s.fsu.i.toNat + 1 := by
      rw [honly]
      exact toNat_add_one_of_lt (v := s.rsLen) (by omega)
    have huprog : u.prog = s.prog ++ [progressPct (s.fsu.i.toNat + 1) s.rsLen.toNat] := by rw [honly]
    have huprogress : u.progress = progressPct (s.fsu.i.toNat + 1) s.rsLen.toNat := by rw [honly]
    obtain ⟨hprog, hprogress⟩ := ih hloop (by rw [hlen]; omega)
    constructor
    · rw [hprog, huprog, hi, hlen, List.append_assoc, List.singleton_append, List.range'_succ, List.map_cons]
    · rw [hprogress, huprogress, hi, hlen, if_neg (Nat.succ_ne_zero n)]
      split
      case isTrue hzero => rw [hzero]
      case isFalse => rw [Nat.add_assoc, Nat.add_comm 1 n]

/-- R202, R218, R223: a pass starts at index 0 with PROGRESS 0, and reports once for every record of RS. -/
theorem fsuBody_progress (h : fsuBody s = .next t) :
    t.prog = s.prog ++ (List.range s.rsLen.toNat).map (fun m => progressPct (m + 1) s.rsLen.toNat) ∧
    t.progress = if s.rsLen = 0 then 0 else 100 := by
  obtain ⟨u, hlabel, hloop⟩ := fsuBody_eq_next.1 h
  obtain ⟨-, -, rfl⟩ := execFrLabel_eq_next.1 hlabel
  obtain ⟨hprog, hprogress⟩ := fsuLoop_progress hloop (Nat.zero_add _).le
  have hstart : (0 : Word).toNat = 0 := rfl
  simp only [fsuInit_fsu, fsuInit_prog, fsuInit_progress, fsuInit_rsLen, fsuBegin_prog, fsuBegin_rsLen, hstart,
    Nat.zero_add] at hprog hprogress
  constructor
  · rw [hprog, List.range'_eq_map_range, List.map_map]
    simp only [Function.comp_def, Nat.add_comm 1]
  · rw [hprogress]
    by_cases hzero : s.rsLen = 0
    · rw [hzero]
      rfl
    · have hpos : 0 < s.rsLen.toNat := Nat.pos_of_ne_zero fun he => hzero (BitVec.eq_of_toNat_eq he)
      rw [if_neg hpos.ne', if_neg hzero, progressPct_self hpos]

end

/-- Settles O41: an in-sync sample with BITCNT below 11 selects FR.SHIFT, whose law gives the state. -/
theorem shiftCollectsOneBit : Obligations.ShiftCollectsOneBit := by
  intro s r r' hsync hbit
  refine execFrShift_eq_next.2 ⟨selFrShift_iff.2 ⟨inSync_of_inSyncAt hsync, hbit⟩, ?_⟩
  obtain ⟨-, -, rfl, -⟩ := hsync
  rw [nextRaw, shiftIn_eq]
  rfl

/-- Settles O42: at BITCNT = 11 the word is complete; FR.WORD's law gives the state, with the byte and the event of R206
and R211. -/
theorem wordStoresItsByte : Obligations.WordStoresItsByte := by
  rintro s r r' r0 hsync hbit hbyte rfl hfits
  intro raw
  have hsel : selFrWord s = true := selFrWord_iff.2 ⟨inSync_of_inSyncAt hsync, hbit, hbyte⟩
  obtain ⟨-, -, rfl, rfl, -⟩ := hsync
  have hraw : nextRaw s = raw := shiftIn_last _ _ hbit
  refine execFrWord_eq_next.2 ⟨hsel, hfits, ?_⟩
  rw [hraw, dataByte_eq, byteEvent_eq]
  rfl

/-- Settles O43: the buffer with its last byte is what the FDU decodes, and FR.FRAME's events are taken around that. -/
theorem frameIsHandedOver : Obligations.FrameIsHandedOver := by
  rintro s r r' r0 rf hsync hbit hbyte rfl rfl hfits hcount
  intro raw fb hvalid herror
  have hsel : selFrFrame s = true := selFrFrame_iff.2 ⟨inSync_of_inSyncAt hsync, hbit, hbyte⟩
  obtain ⟨-, -, rfl, rfl, -⟩ := hsync
  have hraw : nextRaw s = raw := shiftIn_last _ _ hbit
  have hfb : (frameHanded s).fb = fb := by
    simp only [frameHanded, hraw, hbyte, dataByte_eq, fb]
  rw [← hfb] at hvalid herror ⊢
  obtain ⟨d, hdecoded, hcounted, hfdu⟩ := exists_fdu_decoded (s := frameHanded s) hvalid herror
  refine ⟨d, lossPct { s with dec := d }, hdecoded, hcounted, toNat_lossPct _, ?_⟩
  refine (execFrFrame_of_fdu hsel hfits hcount hfdu).trans ?_
  rw [hraw, byteEvent_eq]
  rfl

/-- Settles O47: FRAME that raised nothing ran the FSU's body, from the command's own PROG. -/
theorem progressIsReportedOncePerRecord : Obligations.ProgressIsReportedOncePerRecord := by
  intro s t h herr
  rcases execFrame_eq_next h with ⟨-, rfl⟩ | ⟨b, hbody, rfl⟩
  · exact absurd herr (takeException_err_ne_zero _ _)
  · have hpass := fsuBody_progress hbody
    exact hpass

/-- Settles O40: at the start of a pass FR.LABEL is selected, and its law gives the state. -/
theorem labelEventOpensAPass : Obligations.LabelEventOpensAPass := by
  intro s hact hfits
  exact execFrLabel_eq_next.2 ⟨beq_iff_eq.2 hact, hfits, rfl⟩

/-- Settles O44: the long gap selects FR.DESYNC and the last record FR.TAIL; at the last record the progress is 100. -/
theorem desyncAndTailCollectNothing : Obligations.DesyncAndTailCollectNothing := by
  intro s hact
  constructor
  · rintro r r' hlt rfl rfl hlong
    exact execFrDesync_eq_next.2 ⟨selFrDesync_of_long hact hlt hlong, rfl⟩
  · intro hend
    refine execFrTail_eq_next.2 ⟨selFrTail_iff.2 ⟨hact, hend⟩, ?_⟩
    have hpct : progressPct (s.fsu.i.toNat + 1) s.rsLen.toNat = 100 := by
      rw [hend]
      exact progressPct_self (by omega)
    rw [stepEnd, hpct]
    rfl

/-- Settles O45: each case names a selector that holds there, and that selector gives the operation. -/
theorem synchronizerSelectsOneOperation : Obligations.SynchronizerSelectsOneOperation := by
  intro s hact
  constructor
  · intro hend
    exact selectOp_of_selFrTail (selFrTail_iff.2 ⟨hact, hend⟩)
  intro r r' hlt hr hr' hrise
  constructor
  · subst hr hr'
    exact fun hlong => selectOp_of_selFrDesync (selFrDesync_of_long hact hlt hlong)
  · intro hshort
    have hsync : inSync s = true := inSync_of_inSyncAt ⟨hact, hlt, hr, hr', hrise, hshort⟩
    exact ⟨fun hbit => selectOp_of_selFrShift (selFrShift_iff.2 ⟨hsync, hbit⟩),
      fun hbit hbyte => selectOp_of_selFrWord (selFrWord_iff.2 ⟨hsync, hbit, hbyte⟩),
      fun hbit hbyte => selectOp_of_selFrFrame (selFrFrame_iff.2 ⟨hsync, hbit, hbyte⟩)⟩

end Sys2Proof.Machine
end

-- ==== the frame decoder: its operations, the windows of the channels, and the channel map ====
section
/-! Proofs about the Frame Decoder (spec/44_decoder.md): which frames are valid (R242), what each of its operations leaves
(R243 to R265), the general form of the sixteen windows (R267), purity (R272), and the map between the data field and the
sixteen channels (R273). -/

namespace Sys2Proof

-- ---------------------------------------------------------------- validation

/-- R97: the mask takes FB[0] and FB[24] whole and nothing of the other bytes. -/
theorem extractLsb'_frameMask : ∀ k, k < 25 →
    frameMask.extractLsb' (192 - 8 * k) 8 = if k = 0 ∨ k = 24 then 0xFF else 0 := by decide

theorem extractLsb'_frameMatch : ∀ k, k < 25 →
    frameMatch.extractLsb' (192 - 8 * k) 8 = if k = 0 then 0xF0 else 0 := by decide

/-- The masked frame is the match exactly when its two masked bytes are: compared byte by byte. -/
theorem and_frameMask_eq_frameMatch_iff (fb : Vector Byte 25) :
    frameOfBytes fb &&& frameMask = frameMatch ↔ Machine.ValidFrame fb := by
  have hbyte : ∀ k, k < 25 → (frameOfBytes fb &&& frameMask).extractLsb' (192 - 8 * k) 8 =
      if k = 0 ∨ k = 24 then Machine.fbAt fb k else 0 := by
    intro k hk
    rw [BitVec.extractLsb'_and, extractLsb'_frameOfBytes fb hk, extractLsb'_frameMask k hk]
    split
    · exact BitVec.and_allOnes
    · exact BitVec.and_zero
  constructor
  · intro h
    have hsame : ∀ k, k < 25 → (if k = 0 ∨ k = 24 then Machine.fbAt fb k else 0) = if k = 0 then 0xF0 else 0 :=
      fun k hk => by rw [← hbyte k hk, h, extractLsb'_frameMatch k hk]
    exact ⟨hsame 0 (by decide), hsame 24 (by decide)⟩
  · rintro ⟨hstart, hend⟩
    refine frame_ext fun k hk => ?_
    rw [hbyte k hk, extractLsb'_frameMatch k hk]
    by_cases h0 : k = 0
    · rw [if_pos (.inl h0), if_pos h0, h0, hstart]
    by_cases h24 : k = 24
    · rw [if_pos (.inr h24), if_neg h0, h24, hend]
    · rw [if_neg (not_or.2 ⟨h0, h24⟩), if_neg h0]

/-- Settles O4: `decodeFrame` asks whether the masked frame is the match. -/
theorem onlyStartAndEndBytesValidate : Obligations.OnlyStartAndEndBytesValidate := by
  intro fb
  rw [decodeFrame]
  by_cases hv : Machine.ValidFrame fb
  · rw [if_pos ((and_frameMask_eq_frameMatch_iff fb).2 hv)]
    exact ⟨iff_of_true rfl hv, iff_of_false (by decide) (not_not.2 hv)⟩
  · rw [if_neg (mt (and_frameMask_eq_frameMatch_iff fb).1 hv)]
    exact ⟨iff_of_false (by decide) hv, iff_of_true rfl hv⟩

namespace Machine

-- ---------------------------------------------------------------- one operation at a time

/-- R246 to R261: on a valid frame the operation in place n of `analogOps` writes channel n + 1 of the frame, and nothing
else. -/
theorem exec_analogOps {s : State} (hv : ValidFrame s.fb) {n : Nat} {i : Instr} (hi : analogOps[n]? = some i) :
    exec i s = .next (s.setCh (n + 1) (chAt (channelsOf s.fb) (n + 1))) := by
  have hvalid := frameValid_iff.2 hv
  have hn : n < 16 := (List.getElem?_eq_some_iff.1 hi).1
  interval_cases n <;> cases hi <;> exact whenSelected_eq_next.2 ⟨hvalid, rfl⟩

theorem exec_decCh17_of_valid {s : State} (hv : ValidFrame s.fb) :
    exec .decCh17 s = .next (s.setCh 17 (digital (flagBit s.fb 7))) :=
  whenSelected_eq_next.2 ⟨frameValid_iff.2 hv, rfl⟩

theorem exec_decCh18_of_valid {s : State} (hv : ValidFrame s.fb) :
    exec .decCh18 s = .next (s.setCh 18 (digital (flagBit s.fb 6))) :=
  whenSelected_eq_next.2 ⟨frameValid_iff.2 hv, rfl⟩

/-- R245: a valid frame is counted as good while the counter has room. -/
theorem exec_decGood_of_valid {s : State} (hv : ValidFrame s.fb) (hg : countsLeft s.dec.good 1) :
    exec .decGood s = .next { s with dec := { s.dec with good := s.dec.good + 1 } } :=
  whenSelected_eq_next.2 ⟨frameValid_iff.2 hv, counterUp_eq_next.2 ⟨hg, rfl⟩⟩

/-- R264: a valid frame whose bit 5 says so is counted as lost while the counter has room. -/
theorem exec_decLost_of_valid {s : State} (hv : ValidFrame s.fb) (hbit : flagBit s.fb 5 = true)
    (hl : countsLeft s.dec.lost 1) :
    exec .decLost s = .next { s with dec := { s.dec with lost := s.dec.lost + 1 } } :=
  whenSelected_eq_next.2 ⟨Bool.and_eq_true_iff.2 ⟨frameValid_iff.2 hv, hbit⟩, counterUp_eq_next.2 ⟨hl, rfl⟩⟩

theorem exec_decFs_of_valid {s : State} (hv : ValidFrame s.fb) :
    exec .decFs s = .next { s with dec := { s.dec with failsafe := flagBit s.fb 4 } } :=
  whenSelected_eq_next.2 ⟨frameValid_iff.2 hv, rfl⟩

/-- Settles O18: each clause is the effect of its operation on a valid frame. -/
theorem flagByteOperations : Obligations.FlagByteOperations :=
  fun _ hv => ⟨exec_decCh17_of_valid hv, exec_decCh18_of_valid hv, fun hg => exec_decGood_of_valid hv hg,
    fun hl hbit => exec_decLost_of_valid hv hbit hl, exec_decFs_of_valid hv⟩

/-- Settles O19: DEC.OK leaves `decodedOf`, which is what R271 says of the frame; DEC.ERR counts. -/
theorem framesAreDecodedOrCounted : Obligations.FramesAreDecodedOrCounted := by
  intro s
  constructor
  · intro hv hg hl
    exact ⟨decodedOf s.fb s.dec, decodedBy_decodedOf s.fb s.dec,
      execDecOk_eq_next.2 ⟨frameValid_iff.2 hv, hg, hl, rfl⟩⟩
  · intro hv he
    exact execDecErr_eq_next.2 ⟨Bool.eq_false_iff.2 (mt frameValid_iff.1 hv), he, rfl⟩

/-- After a DEC.OK the channels and the failsafe flag are those of the frame (R271). -/
theorem dec_of_decOk {s t : State} (h : exec .decOk s = .next t) :
    t.dec.ch = channelsOf s.fb ∧ t.dec.failsafe = flagBit s.fb 4 := by
  obtain ⟨-, -, -, rfl⟩ := execDecOk_eq_next.1 h
  exact ⟨rfl, rfl⟩

/-- Settles O21: both states are left with the channels and the flag of the one frame. -/
theorem decodingIsPure : Obligations.DecodingIsPure := by
  intro s s' t t' hfb h h'
  obtain ⟨hch, hfs⟩ := dec_of_decOk h
  obtain ⟨hch', hfs'⟩ := dec_of_decOk h'
  exact ⟨by rw [hch, hch', hfb], by rw [hfs, hfs', hfb]⟩

-- ---------------------------------------------------------------- the general form of the windows

/-- R267: three consecutive bytes of the frame, as one 24-bit number, FB[a] highest. -/
def threeBytes (fb : Vector Byte 25) (a : Nat) : Nat :=
  (fbAt fb a).toNat <<< 16 ||| (fbAt fb (a + 1)).toNat <<< 8 ||| (fbAt fb (a + 2)).toNat

/-- Bit j of three bytes, counted from the highest, is bit 7 - j mod 8 of byte j / 8. -/
theorem testBit_threeBytes (fb : Vector Byte 25) (a : Nat) {j : Nat} (hj : j < 24) :
    (threeBytes fb a).testBit (23 - j) = (fbAt fb (a + j / 8)).getLsbD (7 - j % 8) := by
  have beyond : ∀ (k i : Nat), 8 ≤ i → (fbAt fb k).toNat.testBit i = false :=
    fun k i hi => BitVec.getLsbD_of_ge _ _ hi
  simp only [threeBytes, Nat.testBit_or, Nat.testBit_shiftLeft, BitVec.getLsbD]
  by_cases hfirst : j < 8
  · have hbyte : a + j / 8 = a := by omega
    have hbit : 23 - j - 16 = 7 - j % 8 := by omega
    rw [hbyte, hbit, beyond (a + 1) _ (by omega), beyond (a + 2) _ (by omega), decide_eq_true (by omega)]
    simp only [Bool.true_and, Bool.and_false, Bool.or_false]
  by_cases hsecond : j < 16
  · have hbyte : a + j / 8 = a + 1 := by omega
    have hbit : 23 - j - 8 = 7 - j % 8 := by omega
    rw [hbyte, hbit, beyond (a + 2) _ (by omega), decide_eq_false (by omega : ¬23 - j ≥ 16), decide_eq_true (by omega)]
    simp only [Bool.false_and, Bool.true_and, Bool.false_or, Bool.or_false]
  · have hbyte : a + j / 8 = a + 2 := by omega
    have hbit : 23 - j = 7 - j % 8 := by omega
    rw [hbyte, ← hbit, decide_eq_false (by omega : ¬23 - j ≥ 16), decide_eq_false (by omega : ¬23 - j ≥ 8)]
    simp only [Bool.false_and, Bool.false_or]

/-- R267: the eleven bits of the frame's data field from wire bit o on, reversed. -/
def windowAt (fb : Vector Byte 25) (o : Nat) : Chan :=
  (BitVec.ofNat 11 (threeBytes fb (1 + o / 8) >>> (13 - o % 8) &&& 0x7FF)).reverse

theorem getLsbD_windowAt (fb : Vector Byte 25) (o : Nat) {b : Nat} (hb : b < 11) :
    (windowAt fb o).getLsbD b = wireBit fb (o + b) := by
  have hplace : 13 - o % 8 + (11 - 1 - b) = 23 - (o % 8 + b) := by omega
  have hbyte : 1 + o / 8 + (o % 8 + b) / 8 = 1 + (o + b) / 8 := by omega
  have hbit : (o % 8 + b) % 8 = (o + b) % 8 := by omega
  have hmask : (0x7FF : Nat).testBit (11 - 1 - b) = true :=
    (Nat.testBit_two_pow_sub_one 11 _).trans (decide_eq_true (by omega))
  rw [windowAt, BitVec.getLsbD_reverse, BitVec.getMsbD_eq_getLsbD, BitVec.getLsbD_ofNat, Nat.testBit_and, hmask,
    Nat.testBit_shiftRight, hplace, testBit_threeBytes fb _ (by omega), hbyte, hbit, wireBit, decide_eq_true hb,
    decide_eq_true (by omega : 11 - 1 - b < 11)]
  simp only [Bool.true_and, Bool.and_true]

/-- R267: the sixteen windows of the table are the general form. -/
theorem chAt_channelsOf_eq_windowAt (fb : Vector Byte 25) {n : Nat} (hn : n < 16) :
    chAt (channelsOf fb) (n + 1) = windowAt fb (11 * n) :=
  BitVec.eq_of_getLsbD_eq fun _ hb =>
    (getLsbD_channelsOf fb (by omega) (by omega) hb).trans (getLsbD_windowAt fb (11 * n) hb).symm

/-- Settles O17: each operation writes the channel of its place, which is the general form and the frame's wire bits. -/
theorem analogChannelsFollowTheWindows : Obligations.AnalogChannelsFollowTheWindows := by
  intro s n i hv hi o a r
  have hn : n < 16 := (List.getElem?_eq_some_iff.1 hi).1
  exact ⟨windowAt s.fb (11 * n), by rw [exec_analogOps hv hi, chAt_channelsOf_eq_windowAt s.fb hn]; rfl, rfl,
    fun _ hb => getLsbD_windowAt s.fb (11 * n) hb⟩

-- ---------------------------------------------------------------- the channel map

/-- Bit j of a byte of the data field is a wire bit (R62). -/
theorem getLsbD_fbAt_eq_wireBit (fb : Vector Byte 25) {k j : Nat} (hk : 1 ≤ k) (hj : j < 8) :
    (fbAt fb k).getLsbD j = wireBit fb (8 * (k - 1) + (7 - j)) := by
  have hbyte : 1 + (8 * (k - 1) + (7 - j)) / 8 = k := by omega
  have hbit : 7 - (8 * (k - 1) + (7 - j)) % 8 = j := by omega
  rw [wireBit, hbyte, hbit]

/-- Every wire bit of the data field stands in one of the sixteen channels. -/
theorem wireBit_eq_getLsbD_channelsOf (fb : Vector Byte 25) {p : Nat} (hp : p < 176) :
    wireBit fb p = (chAt (channelsOf fb) (p / 11 + 1)).getLsbD (p % 11) := by
  have hplace : 11 * (p / 11 + 1 - 1) + p % 11 = p := by omega
  rw [getLsbD_channelsOf fb (by omega) (by omega) (Nat.mod_lt p (by decide)), hplace]

/-- R273, one half: the sixteen channels determine the data field. -/
theorem fbAt_eq_of_channelsOf_eq {fb fb' : Vector Byte 25}
    (h : ∀ n, 1 ≤ n → n ≤ 16 → chAt (channelsOf fb) n = chAt (channelsOf fb') n) {k : Nat} (h1 : 1 ≤ k) (h2 : k ≤ 22) :
    fbAt fb k = fbAt fb' k := by
  refine BitVec.eq_of_getLsbD_eq fun j hj => ?_
  rw [getLsbD_fbAt_eq_wireBit fb h1 hj, getLsbD_fbAt_eq_wireBit fb' h1 hj, wireBit_eq_getLsbD_channelsOf fb (by omega),
    wireBit_eq_getLsbD_channelsOf fb' (by omega), h _ (by omega) (by omega)]

/-- Wire bit p of a data field that carries the channel values `chs`, channel 1 first. -/
def wireBitOf (chs : Vector Chan 16) (p : Nat) : Bool := ((chs[p / 11]?).getD 0).getLsbD (p % 11)

/-- Byte k of that data field, the first bit in time highest (R62). -/
def dataByteOf (chs : Vector Chan 16) (k : Nat) : Byte :=
  BitVec.ofFnLE fun j : Fin 8 => wireBitOf chs (8 * (k - 1) + (7 - j))

/-- A valid frame that carries the channel values `chs`, with no flag set. -/
def frameOfChannels (chs : Vector Chan 16) : Vector Byte 25 :=
  Vector.ofFn fun k => if k.val = 0 then Config.startByte else if k.val ≤ 22 then dataByteOf chs k else 0

theorem fbAt_frameOfChannels (chs : Vector Chan 16) {k : Nat} (hk : k < 25) :
    fbAt (frameOfChannels chs) k =
      if k = 0 then Config.startByte else if k ≤ 22 then dataByteOf chs k else 0 := by
  rw [fbAt, Vector.getElem?_eq_getElem hk, Option.getD_some, frameOfChannels, Vector.getElem_ofFn]

theorem validFrame_frameOfChannels (chs : Vector Chan 16) : ValidFrame (frameOfChannels chs) :=
  ⟨fbAt_frameOfChannels chs (by decide), fbAt_frameOfChannels chs (by decide)⟩

theorem wireBit_frameOfChannels (chs : Vector Chan 16) {p : Nat} (hp : p < 176) :
    wireBit (frameOfChannels chs) p = wireBitOf chs p := by
  have hplace : 8 * (1 + p / 8 - 1) + (7 - (7 - p % 8)) = p := by omega
  rw [wireBit, fbAt_frameOfChannels chs (by omega), if_neg (by omega), if_pos (by omega), dataByteOf,
    BitVec.getLsbD_ofFnLE, dif_pos (by omega), hplace]

/-- R273, the other half: every sixteen values are the channels of a frame. -/
theorem chAt_channelsOf_frameOfChannels (chs : Vector Chan 16) {n : Nat} (h1 : 1 ≤ n) (h2 : n ≤ 16) :
    chAt (channelsOf (frameOfChannels chs)) n = (chs[n - 1]?).getD 0 := by
  refine BitVec.eq_of_getLsbD_eq fun b hb => ?_
  have hchan : (11 * (n - 1) + b) / 11 = n - 1 := by omega
  have hbit : (11 * (n - 1) + b) % 11 = b := by omega
  rw [getLsbD_channelsOf _ h1 h2 hb, wireBit_frameOfChannels chs (by omega), wireBitOf, hchan, hbit]

/-- Settles O22: the frame that carries the values decodes to them, and the channels determine the data field. -/
theorem channelMapIsBijective : Obligations.ChannelMapIsBijective := by
  constructor
  · intro chs
    refine ⟨frameOfChannels chs, validFrame_frameOfChannels chs, ?_⟩
    rintro s t hfb h n h1 h2
    rw [(dec_of_decOk h).1, hfb, chAt_channelsOf_frameOfChannels chs h1 h2]
  · intro s s' t t' h h' hsame k h1 h2
    rw [(dec_of_decOk h).1, (dec_of_decOk h').1] at hsame
    exact fbAt_eq_of_channelsOf_eq hsame h1 h2

end Machine

end Sys2Proof
end

-- ==== the integer arithmetic of the views: the loss percentage and the normalised channel ====
section
/-! Proofs about the arithmetic behind the two views (spec/44_decoder.md R280, R282): both functions are monotone, and
NORM's value fits its signed register. -/

namespace Sys2Proof.Machine

/-- The part x of a whole g + x, in percent, does not fall as x grows: q whole percents of g + x are still there in
g + x', for q is at most 100. -/
theorem percent_mono {g x x' : Nat} (hpos : 0 < g + x) (hx : x ≤ x') :
    x * 100 / (g + x) ≤ x' * 100 / (g + x') := by
  have hq : x * 100 / (g + x) ≤ 100 := Nat.div_le_of_le_mul (by omega)
  have hmul : x * 100 / (g + x) * (g + x) ≤ x * 100 := Nat.div_mul_le_self _ _
  rw [Nat.le_div_iff_mul_le (by omega)]
  calc x * 100 / (g + x) * (g + x')
      = x * 100 / (g + x) * (g + x) + x * 100 / (g + x) * (x' - x) := by rw [← Nat.mul_add]; congr 1; omega
    _ ≤ x * 100 + 100 * (x' - x) := Nat.add_le_add hmul (Nat.mul_le_mul_right _ hq)
    _ = x' * 100 := by omega

/-- Settles O24: lost and error frames enter the percentage by their sum alone. -/
theorem lossPercentageIsMonotone : Obligations.LossPercentageIsMonotone := by
  intro g l e l' e' hpos hl he
  rw [lossPercent, lossPercent, Nat.add_assoc, Nat.add_assoc]
  exact percent_mono (by omega) (by omega)

-- ---------------------------------------------------------------- the normalised view

theorem normView_mono {c c' : Nat} (h : c ≤ c') : normView c ≤ normView c' := by
  have hdiv : (50 * c + 248) / 496 ≤ (50 * c' + 248) / 496 := Nat.div_le_div_right (by omega)
  simp only [normView]
  omega

/-- R282: the ends of the range are the values at 0 and at full scale. -/
theorem normView_bounds (c : Chan) : -100 ≤ normView c.toNat ∧ normView c.toNat ≤ 106 :=
  ⟨normView_mono (Nat.zero_le _), normView_mono (Nat.le_of_lt_succ c.isLt)⟩

/-- The value is not changed by the 32 bits of its register. -/
theorem toInt_ofInt_normView (c : Chan) : (BitVec.ofInt 32 (normView c.toNat)).toInt = normView c.toNat := by
  obtain ⟨hlow, hhigh⟩ := normView_bounds c
  exact BitVec.toInt_ofInt_eq_self (by decide) (by omega) (by omega)

theorem exec_norm {n : Nat} (h : 1 ≤ n ∧ n ≤ 18) (s : State) :
    exec (.norm n) s =
      .next { s with reply := some (.csr (BitVec.ofInt 32 (normView (chAt s.dec.ch n).toNat))) } :=
  if_pos h

/-- Settles O25: the reply is `normView` of the channel, whose monotonicity also gives its bounds. -/
theorem normalisedView : Obligations.NormalisedView := by
  refine ⟨fun s n h1 h2 => ?_, fun _ _ h => normView_mono h, rfl, rfl, rfl⟩
  have hvalue := toInt_ofInt_normView (chAt s.dec.ch n)
  obtain ⟨hlow, hhigh⟩ := normView_bounds (chAt s.dec.ch n)
  exact ⟨_, hvalue, hlow.trans_eq hvalue.symm, hvalue.trans_le hhigh, exec_norm ⟨h1, h2⟩ s⟩

end Sys2Proof.Machine
end

-- ==== exceptions, and the host's state under every operation ====
section
/-! Proofs about the three exceptions (spec/60_exceptions.md R290 to R297): where they are raised and that they change
STATUS alone; and about the state that belongs to the host, which no operation writes (R302, spec/20_memory.md R38). -/

namespace Sys2Proof.Machine

section

variable {s t : State}

-- ---------------------------------------------------------------- taking an exception

/-- R290: the codes of the exceptions. -/
theorem excCode_range (e : Exc) : 1 ≤ excCode e ∧ excCode e ≤ 3 := by cases e <;> decide

/-- R132, R296: an exception of a command that has done its prologue, as a change of STATUS. -/
theorem takeException_prologue (s : State) (e : Exc) : s.prologue.takeException e = { s with status :=
    { done := false, err := BitVec.ofNat 4 (excCode e),
      errlog := s.status.errlog ||| BitVec.ofNat 4 (2 ^ (excCode e - 1)) } } := by
  have hbit : BitVec.twoPow 4 (excCode e - 1) = BitVec.ofNat 4 (2 ^ (excCode e - 1)) := by cases e <;> decide
  simp only [State.takeException, State.prologue, hbit]

theorem raise_prologue (e : Exc) (s : State) : raise e s.prologue = .next { s with status :=
    { done := false, err := BitVec.ofNat 4 (excCode e),
      errlog := s.status.errlog ||| BitVec.ofNat 4 (2 ^ (excCode e - 1)) } } :=
  congrArg Host.Outcome.next (takeException_prologue s e)

-- ---------------------------------------------------------------- where a command raises

/-- R135: below the least sample rate PRECHECK raises, whatever the body is. -/
theorem precheck_of_low_rate (h : s.cfg.sampleRate.toNat < 200000) (body : Out) :
    precheck s body = raise .preconditionFailure s :=
  precheck_eq_next.2 (.inr ⟨h, rfl⟩)

/-- Settles O14: PRECHECK is the first thing that each of the four commands does after its prologue. -/
theorem lowSampleRateRaisesPreconditionFailure : Obligations.LowSampleRateRaisesPreconditionFailure := by
  intro s i hi hrate
  have hraise (body : Out) := (precheck_of_low_rate (s := s.prologue) hrate body).trans (raise_prologue _ s)
  simp only [List.mem_cons, List.not_mem_nil, or_false] at hi
  rcases hi with rfl | rfl | rfl | rfl <;> exact hraise _

/-- R292: DECODE checks FB_LEN first. -/
theorem exec_decode_of_bad_length (h : s.cfg.fbLen ≠ 25) : exec .decode s = raise .invalidArgument s.prologue := by
  have hlen : s.prologue.cfg.fbLen.toNat ≠ Config.frameBytes := mt (BitVec.eq_of_toNat_eq (y := 25#32)) h
  exact if_pos hlen

/-- R293: RUN checks MODE after PRECHECK. -/
theorem exec_run_of_reserved_mode (hrate : 200000 ≤ s.cfg.sampleRate.toNat) (hmode : s.cfg.mode = 3) :
    exec .run s = raise .invalidArgument s.prologue :=
  (precheck_of_rate (s := s.prologue) hrate _).trans (if_pos hmode)

/-- R293: MODEDET checks its range after PRECHECK. -/
theorem exec_modedet_of_bad_range (hrate : 200000 ≤ s.cfg.sampleRate.toNat)
    (hrange : s.cfg.rangeEnd.toNat < s.cfg.rangeStart.toNat ∨ s.cfg.inLen.toNat < s.cfg.rangeEnd.toNat) :
    exec .modedet s = raise .invalidArgument s.prologue := by
  have hbad : ¬(s.cfg.rangeStart.toNat ≤ s.cfg.rangeEnd.toNat ∧ s.cfg.rangeEnd.toNat ≤ s.cfg.inLen.toNat) := by omega
  exact (precheck_of_rate (s := s.prologue) hrate _).trans (if_pos hbad)

/-- Settles O15: each command raises at the check that its argument fails. -/
theorem badArgumentsRaiseInvalidArgument : Obligations.BadArgumentsRaiseInvalidArgument :=
  fun s =>
    have hraise := raise_prologue .invalidArgument s
    ⟨fun hlen => (exec_decode_of_bad_length hlen).trans hraise,
      fun hrate hmode => (exec_run_of_reserved_mode hrate hmode).trans hraise,
      fun hrate hrange => (exec_modedet_of_bad_range hrate hrange).trans hraise⟩

-- ---------------------------------------------------------------- what belongs to the host

/-- The part of the machine that belongs to the host (R9, R38, R302): the configuration, the IN records, the OPEN
parameters and the pending accesses. -/
def State.hostSide (s : State) : Cfg × Memory InRec × Nat × Config.Params × List HostAct :=
  (s.cfg, s.inMem, s.inEra, s.par, s.host)

theorem hostSide_eq_iff : t.hostSide = s.hostSide ↔
    t.cfg = s.cfg ∧ t.inMem = s.inMem ∧ t.inEra = s.inEra ∧ t.par = s.par ∧ t.host = s.host := by
  simp only [State.hostSide, Prod.mk.injEq]

/-- What every unit keeps: the host's part of the machine, and ERR. -/
structure UnitKept (s t : State) : Prop where
  hostSide : t.hostSide = s.hostSide
  err : t.status.err = s.status.err

theorem UnitKept.trans {u : State} (hsu : UnitKept s u) (hut : UnitKept u t) : UnitKept s t :=
  ⟨hut.hostSide.trans hsu.hostSide, hut.err.trans hsu.err⟩

theorem rsuStep_unitKept (h : rsuStep s = .next t) : UnitKept s t := by
  rw [rsuStep_only h]
  exact ⟨rfl, rfl⟩

theorem rsuBody_unitKept (h : rsuBody s = .next t) : UnitKept s t := by
  rw [rsuBody_only h]
  exact ⟨rfl, rfl⟩

theorem fsuStep_unitKept (h : fsuStep s = .next t) : UnitKept s t := by
  rw [fsuStep_only h]
  exact ⟨rfl, rfl⟩

theorem fsuBody_unitKept (h : fsuBody s = .next t) : UnitKept s t := by
  rw [fsuBody_only h]
  exact ⟨rfl, rfl⟩

theorem mduBody_unitKept {a e : Nat} (h : mduBody a e s = .next t) : UnitKept s t := by
  rw [mduBody_only h]
  exact ⟨rfl, rfl⟩

theorem runMode_unitKept (h : runMode s = .next t) : UnitKept s t := by
  rw [runMode_only h]
  exact ⟨rfl, rfl⟩

theorem fdu_unitKept (h : fdu s = .next t) : UnitKept s t := by
  rw [fdu_only h]
  exact ⟨rfl, rfl⟩

-- ---------------------------------------------------------------- every command

/-- R132, R296: a command of R91 that answers a next state raised right after its prologue, or it completed: ERR is 0, as
the prologue left it, and the host's part is as it was. -/
theorem exec_command_eq_next {i : Instr} (h : exec i s = .next t) (hi : (encodeCmd i).isSome = true) :
    (∃ e, t = s.prologue.takeException e) ∨ (t.hostSide = s.hostSide ∧ t.status.err = 0) := by
  cases i with
  | nop | sreset =>
    cases h
    exact .inr ⟨rfl, rfl⟩
  | run =>
    rcases execRun_eq_next h with ⟨-, rfl⟩ | ⟨-, rfl⟩ | ⟨-, a, b, c, hmode, hrsu, hfsu, rfl⟩
    · exact .inl ⟨_, rfl⟩
    · exact .inl ⟨_, rfl⟩
    · obtain ⟨hside, herr⟩ := (runMode_unitKept hmode).trans ((rsuBody_unitKept hrsu).trans (fsuBody_unitKept hfsu))
      exact .inr ⟨hside, herr⟩
  | resample =>
    rcases execResample_eq_next h with ⟨-, rfl⟩ | ⟨b, hrsu, rfl⟩
    · exact .inl ⟨_, rfl⟩
    · obtain ⟨hside, herr⟩ := rsuBody_unitKept hrsu
      exact .inr ⟨hside, herr⟩
  | frame =>
    rcases execFrame_eq_next h with ⟨-, rfl⟩ | ⟨b, hfsu, rfl⟩
    · exact .inl ⟨_, rfl⟩
    · obtain ⟨hside, herr⟩ := fsuBody_unitKept hfsu
      exact .inr ⟨hside, herr⟩
  | decode =>
    rcases execDecode_eq_next h with ⟨-, rfl⟩ | ⟨b, hfdu, rfl⟩
    · exact .inl ⟨_, rfl⟩
    · obtain ⟨hside, herr⟩ := fdu_unitKept hfdu
      exact .inr ⟨hside, herr⟩
  | modedet =>
    rcases execModedet_eq_next h with ⟨-, rfl⟩ | rfl | ⟨b, hmdu, rfl⟩
    · exact .inl ⟨_, rfl⟩
    · exact .inl ⟨_, rfl⟩
    · obtain ⟨hside, herr⟩ := mduBody_unitKept hmdu
      exact .inr ⟨hside, herr⟩
  | reservedCommand w => exact .inl ⟨_, execReservedCommand_eq_next h⟩
  | _ => cases hi

/-- Settles O16: every command word selects a command, and one that leaves ERR other than 0 raised. -/
theorem exceptionsArePrecise : Obligations.ExceptionsArePrecise := by
  intro w s t h herr
  rcases exec_command_eq_next h (encodeCmd_decodeCmd_isSome w) with ⟨e, rfl⟩ | ⟨-, hcompleted⟩
  · obtain ⟨hlow, hhigh⟩ := excCode_range e
    rw [takeException_prologue]
    exact ⟨rfl, rfl, excCode e, hlow, hhigh, rfl, rfl⟩
  · exact absurd hcompleted herr

-- ---------------------------------------------------------------- every operation

theorem exec_command_hostSide {i : Instr} (h : exec i s = .next t) (hi : (encodeCmd i).isSome = true) :
    t.hostSide = s.hostSide := by
  rcases exec_command_eq_next h hi with ⟨e, rfl⟩ | ⟨hside, -⟩
  · rfl
  · exact hside

/-- R271: the two kinds of frame, the parts of a DEC.OK, and DECODE, which runs them. -/
theorem exec_decodes_hostSide {i : Instr} (h : exec i s = .next t) (hi : decoderUse i = .decodes) :
    t.hostSide = s.hostSide := by
  cases i with
  | decode => exact exec_command_hostSide h rfl
  | decOk =>
    obtain ⟨-, -, -, rfl⟩ := execDecOk_eq_next.1 h
    rfl
  | decErr =>
    obtain ⟨-, -, rfl⟩ := execDecErr_eq_next.1 h
    rfl
  | decGood | decLost =>
    obtain ⟨-, ht⟩ := counterUp_eq_next.1 (whenSelected_eq_next.1 h).2
    cases ht
    rfl
  | decFs | decCh1 | decCh2 | decCh3 | decCh4 | decCh5 | decCh6 | decCh7 | decCh8 | decCh9 | decCh10 | decCh11
  | decCh12 | decCh13 | decCh14 | decCh15 | decCh16 | decCh17 | decCh18 =>
    obtain ⟨-, ht⟩ := whenSelected_eq_next.1 h
    cases ht
    rfl
  | _ => cases hi

/-- R38, R302: no operation writes what belongs to the host. Every operation is a command, a view, a step of the RSU or
of the FSU's walk, the label of a pass, an operation of the MDU, or one of the FDU. -/
theorem exec_hostSide {i : Instr} (h : exec i s = .next t) : t.hostSide = s.hostSide := by
  cases i with
  | nop | sreset | run | resample | frame | decode | modedet | reservedCommand => exact exec_command_hostSide h rfl
  | rsScan => exact (rsuStep_unitKept (rsuStep_of_exec (.inl h))).hostSide
  | rsStart => exact (rsuStep_unitKept (rsuStep_of_exec (.inr (.inl h)))).hostSide
  | rsEdge => exact (rsuStep_unitKept (rsuStep_of_exec (.inr (.inr (.inl h))))).hostSide
  | rsFill => exact (rsuStep_unitKept (rsuStep_of_exec (.inr (.inr (.inr (.inl h)))))).hostSide
  | rsClip => exact (rsuStep_unitKept (rsuStep_of_exec (.inr (.inr (.inr (.inr (.inl h))))))).hostSide
  | rsTrail => exact (rsuStep_unitKept (rsuStep_of_exec (.inr (.inr (.inr (.inr (.inr h))))))).hostSide
  | mdGap =>
    obtain ⟨-, rfl⟩ := execMdGap_eq_next.1 h
    rfl
  | mdClassify =>
    obtain ⟨-, rfl⟩ := execMdClassify_eq_next.1 h
    rfl
  | frLabel =>
    obtain ⟨-, -, rfl⟩ := execFrLabel_eq_next.1 h
    rfl
  | frShift => exact (fsuStep_unitKept (fsuStep_of_exec (.inl h))).hostSide
  | frWord => exact (fsuStep_unitKept (fsuStep_of_exec (.inr (.inl h)))).hostSide
  | frFrame => exact (fsuStep_unitKept (fsuStep_of_exec (.inr (.inr (.inl h))))).hostSide
  | frDesync => exact (fsuStep_unitKept (fsuStep_of_exec (.inr (.inr (.inr (.inl h)))))).hostSide
  | frTail => exact (fsuStep_unitKept (fsuStep_of_exec (.inr (.inr (.inr (.inr h)))))).hostSide
  | losspct =>
    obtain ⟨u, hu, hans⟩ := exec_losspct_answered s
    cases hu.symm.trans h
    obtain ⟨r, d, rfl, -⟩ := hans
    rfl
  | norm n =>
    simp only [exec, execNorm] at h
    split at h <;> cases h
    rfl
  | decOk | decErr | decGood | decLost | decFs | decCh1 | decCh2 | decCh3 | decCh4 | decCh5 | decCh6 | decCh7 | decCh8
  | decCh9 | decCh10 | decCh11 | decCh12 | decCh13 | decCh14 | decCh15 | decCh16 | decCh17 | decCh18 =>
    exact exec_decodes_hostSide h rfl

end

/-- Settles O55: the host's part, taken apart. -/
theorem theCoreNeverWritesTheHostsState : Obligations.TheCoreNeverWritesTheHostsState :=
  fun _ _ _ h => hostSide_eq_iff.1 (exec_hostSide h)

end Sys2Proof.Machine
end

-- ==== hardware reset ====
section
/-! Proofs about hardware reset (spec/70_reset_and_hazards.md R330 to R332): what the state after it holds, and that
the reset input acts in any state. -/

namespace Sys2Proof.Machine

/-- A cleared vector reads as 0 at every index. -/
theorem getD_replicate {α : Type} (m k : Nat) (x : α) : ((Vector.replicate m x)[k]?).getD x = x := by
  rw [Vector.getElem?_replicate]
  split <;> rfl

theorem chAt_replicate (n : Nat) : chAt (Vector.replicate 18 0) n = 0 := getD_replicate 18 (n - 1) 0

theorem fbAt_replicate (k : Nat) : fbAt (Vector.replicate 25 0) k = 0 := getD_replicate 25 k 0

/-- R31, R331: no frame is counted after reset, so LOSS_VALID is 0 with the stored fields of STATUS. -/
theorem statusWord_resetWith (p : Config.Params) : statusWord (State.resetWith p) = 0 := by
  have hsame : statusWord (State.resetWith p) = statusWord State.reset := rfl
  rw [hsame]
  decide

/-- Settles O9: the registers are 0 as `State.resetWith` sets them, every entry of a cleared vector is 0, and an idle core
without an access is quiet. -/
theorem hardwareResetClearsEverything : Obligations.HardwareResetClearsEverything := by
  intro p s
  refine ⟨⟨rfl, rfl, rfl, rfl, rfl, rfl, rfl⟩, ?channels, rfl, ⟨rfl, rfl, rfl, rfl, rfl, rfl⟩, ⟨rfl, rfl, rfl⟩,
    ⟨rfl, rfl⟩, ?buffer, ⟨rfl, rfl, rfl, rfl, rfl⟩, ⟨rfl, rfl, rfl⟩, statusWord_resetWith p, step_quiet rfl rfl⟩
  case channels => exact fun n _ _ => chAt_replicate n
  case buffer => exact fun k _ => fbAt_replicate k

/-- Settles O10: the reset input is looked at before the core's activity. -/
theorem hardwareResetActsInAnyState : Obligations.HardwareResetActsInAnyState :=
  fun _ _ hh => step_reset hh

/-- Settles O58: the reset state has the invariant for every choice of the OPEN parameters, the defaults among them. -/
theorem invariantHoldsAtReset : Obligations.InvariantHoldsAtReset :=
  ⟨resetWith_inv _, resetWith_inv⟩

end Sys2Proof.Machine
end

-- ==== commands outside the host's obligations ====
section
/-! Proofs about the commands whose input breaks the host's obligations (spec/70_reset_and_hazards.md R336, R338,
R339): their checks refuse it by name (logs 8 and 9). -/

namespace Sys2Proof.Machine

section

variable {s : State}

-- ---------------------------------------------------------------- the checks

/-- R339, U7: an IN_LEN beyond IN_CAP. -/
theorem withInput_of_not_fits (h : fits s.par.inCap s.cfg.inLen.toNat = false) (a e : Nat) (body : Out) :
    withInput s a e body = .refused (.capacity .inp) :=
  if_pos (by rw [h, Bool.not_false])

/-- R336, U1: an IN within its capacity that is not ready fails the check of some record. -/
theorem withInput_of_not_ready {a e : Nat} (hfits : fits s.par.inCap s.cfg.inLen.toNat = true)
    (h : ¬InputReady s a e) (body : Out) : withInput s a e body = .refused .inputNotIncreasing := by
  have hsome : (List.range s.cfg.inLen.toNat).all (inputOkAt s a e) = false :=
    Bool.eq_false_iff.2 fun hall =>
      h (inputReady_of_checks hfits fun k hk => List.all_eq_true.1 hall k (List.mem_range.2 hk))
  simp only [withInput, hfits, hsome, Bool.not_true, Bool.not_false, Bool.false_eq_true, if_false, if_true]

/-- R339, U7: an RS_LEN beyond RS_CAP. -/
theorem withResampled_of_not_fits (h : fits s.par.rsCap s.rsLen.toNat = false) (body : Out) :
    withResampled s body = .refused (.capacity .rs) :=
  if_pos (by rw [h, Bool.not_false])

/-- R338, U4: an RS within its capacity that is not ready has a pair that does not rise. -/
theorem withResampled_of_not_ready (hfits : fits s.par.rsCap s.rsLen.toNat = true) (h : ¬ResampledReady s)
    (body : Out) : withResampled s body = .refused .rsNotIncreasing := by
  have hsome : (List.range (s.rsLen.toNat - 1)).all
      (fun k => decide ((s.rsAt k).ts.toNat < (s.rsAt (k + 1)).ts.toNat)) = false :=
    Bool.eq_false_iff.2 fun hall => h ⟨hfits, fun k _ hk =>
      of_decide_eq_true (List.all_eq_true.1 hall k (List.mem_range.2 (by omega)))⟩
  simp only [withResampled, hfits, hsome, Bool.not_true, Bool.not_false, Bool.false_eq_true, if_false, if_true]

-- ---------------------------------------------------------------- the commands past their exceptions

/-- R136: with a legal sample rate and mode, RUN is its units behind the checks on the whole capture. -/
theorem exec_run_eq_withInput (hrate : 200000 ≤ s.cfg.sampleRate.toNat) (hmode : s.cfg.mode ≠ 3) :
    ∃ body, exec .run s = withInput s.prologue 0 s.cfg.inLen.toNat body :=
  ⟨_, (precheck_of_rate (s := s.prologue) hrate _).trans (if_neg hmode)⟩

/-- R137: with a legal sample rate, RESAMPLE is the RSU behind the checks on the whole capture. -/
theorem exec_resample_eq_withInput (hrate : 200000 ≤ s.cfg.sampleRate.toNat) :
    ∃ body, exec .resample s = withInput s.prologue 0 s.cfg.inLen.toNat body :=
  ⟨_, precheck_of_rate (s := s.prologue) hrate _⟩

/-- R141: with a legal sample rate and range, MODEDET is the MDU behind the checks on that range. -/
theorem exec_modedet_eq_withInput (hrate : 200000 ≤ s.cfg.sampleRate.toNat)
    (hrange : s.cfg.rangeStart.toNat ≤ s.cfg.rangeEnd.toNat ∧ s.cfg.rangeEnd.toNat ≤ s.cfg.inLen.toNat) :
    ∃ body, exec .modedet s = withInput s.prologue s.cfg.rangeStart.toNat s.cfg.rangeEnd.toNat body :=
  ⟨_, (precheck_of_rate (s := s.prologue) hrate _).trans (if_neg (not_not.2 hrange))⟩

/-- R138: with a legal sample rate, FRAME is the FSU behind the checks on RS. -/
theorem exec_frame_eq_withResampled (hrate : 200000 ≤ s.cfg.sampleRate.toNat) :
    ∃ body, exec .frame s = withResampled s.prologue body :=
  ⟨_, precheck_of_rate (s := s.prologue) hrate _⟩

/-- A command behind the checks on IN stops by name at the obligation that is missing; its prologue leaves IN alone. -/
theorem stops_of_eq_withInput {o : Out} {a e : Nat} (h : ∃ body, o = withInput s.prologue a e body) :
    (fits s.par.inCap s.cfg.inLen.toNat = false → o = .refused (.capacity .inp)) ∧
    (fits s.par.inCap s.cfg.inLen.toNat = true → ¬InputReady s a e → o = .refused .inputNotIncreasing) := by
  obtain ⟨body, rfl⟩ := h
  exact ⟨fun hfits => withInput_of_not_fits (s := s.prologue) hfits a e body,
    fun hfits hready => withInput_of_not_ready (s := s.prologue) hfits hready body⟩

end

/-- Settles O53: past its exceptions each command is its body behind the checks on what it reads, and those refuse. -/
theorem commandsStopOutsideTheirDomain : Obligations.CommandsStopOutsideTheirDomain := by
  intro s hrate
  refine ⟨?input, ?resampled⟩
  case input =>
    rintro i (⟨rfl, hmode⟩ | rfl | ⟨rfl, hrange⟩)
    · exact stops_of_eq_withInput (exec_run_eq_withInput hrate hmode)
    · exact stops_of_eq_withInput (exec_resample_eq_withInput hrate)
    · exact stops_of_eq_withInput (exec_modedet_eq_withInput hrate hrange)
  case resampled =>
    obtain ⟨body, hbody⟩ := exec_frame_eq_withResampled hrate
    rw [hbody]
    exact ⟨fun hfits => withResampled_of_not_fits (s := s.prologue) hfits body,
      fun hfits hready => withResampled_of_not_ready (s := s.prologue) hfits hready body⟩

end Sys2Proof.Machine
end

-- ==== full counters and full memories ====
section
/-! Proofs about the operations at a full counter or a full memory (spec/70_reset_and_hazards.md R339, R340): they are
refused, and nothing wraps (logs 9 and 10). -/

namespace Sys2Proof.Machine

section

variable {s : State}

-- ---------------------------------------------------------------- the selected operation's own guard

/-- The guard of a unit's operation, or of the FDU's two bodies (R103, column "selected when"). -/
abbrev guardOf (s : State) : Instr → Bool
  | .mdGap => selMdGap s
  | .mdClassify => selMdClassify s
  | .rsScan => selRsScan s
  | .rsStart => selRsStart s
  | .rsEdge => selRsEdge s
  | .rsFill => selRsFill s
  | .rsClip => selRsClip s
  | .rsTrail => selRsTrail s
  | .frLabel => selFrLabel s
  | .frShift => selFrShift s
  | .frWord => selFrWord s
  | .frFrame => selFrFrame s
  | .frDesync => selFrDesync s
  | .frTail => selFrTail s
  | .decOk => frameValid s.fb
  | .decErr => !frameValid s.fb
  | _ => false

/-- The operation that a state selects has its guard open there. -/
theorem guardOf_selectOp {i : Instr} (h : selectOp s = some i) : guardOf s i = true := by
  cases ha : s.act with
  | idle | mduDone | fsuInit =>
    simp only [selectOp, ha] at h
    cases h
  | fsuLabel =>
    simp only [selectOp, ha] at h
    cases h
    exact beq_iff_eq.2 ha
  | fdu =>
    simp only [selectOp, ha] at h
    by_cases hvalid : frameValid s.fb = true
    · rw [if_pos hvalid] at h
      cases h
      exact hvalid
    · rw [if_neg hvalid] at h
      cases h
      exact Bool.not_eq_eq_eq_not.2 (Bool.eq_false_iff.2 hvalid)
  | mdu | scan | inFrame | fsuWalk =>
    simp only [selectOp, ha] at h
    repeat' split at h
    all_goals cases h
    all_goals assumption

-- ---------------------------------------------------------------- full counters and full memories

theorem counterUp_of_full {c : Word} (h : c = 0xFFFFFFFF) (f : Word → Out) :
    counterUp c f = .refused .counterOverflow :=
  counterUp_of_not_lt (by rw [h]; decide) f

/-- A counter that is not full has room for one more. -/
theorem countsLeft_of_ne_full {c : Word} (h : c ≠ 0xFFFFFFFF) : countsLeft c 1 := by
  have hne : c.toNat ≠ 2 ^ 32 - 1 := mt (BitVec.eq_of_toNat_eq (y := 0xFFFFFFFF#32)) h
  have hlt := c.isLt
  omega

theorem appendRs_of_not_fits (h : fits s.par.rsCap (s.rsLen.toNat + 1) = false) (r : RsRec) :
    appendRs r s = .refused (.capacity .rs) :=
  if_neg (Bool.eq_false_iff.1 h)

theorem appendEv_of_not_fits (h : fits s.par.evCap (s.ev.length + 1) = false) (e : EvRec) :
    appendEv e s = .refused (.capacity .ev) :=
  if_neg (Bool.eq_false_iff.1 h)

/-- Records that RS has no room for are refused, however many of them it could still take. -/
theorem appendBits_of_not_fits (b : Bool) {n : Nat} (hn : n ≠ 0) (m : Nat)
    (h : fits s.par.rsCap (s.rsLen.toNat + n) = false) : appendBits b n m s = .refused (.capacity .rs) := by
  induction n generalizing m s with
  | zero => exact absurd rfl hn
  | succ n ih =>
    by_cases hone : fits s.par.rsCap (s.rsLen.toNat + 1) = true
    case neg => rw [appendBits, appendRs_of_not_fits (Bool.eq_false_iff.2 hone), andThen_refused]
    have hrest : n ≠ 0 := by
      rintro rfl
      exact Bool.eq_false_iff.1 h hone
    have hlen : (s.rsLen + 1).toNat + n = s.rsLen.toNat + (n + 1) := by
      rw [toNat_add_one (lt_of_fits hone)]
      omega
    rw [appendBits, andThen_of_eq (appendRs_eq_next.2 ⟨hone, rfl⟩)]
    exact ih hrest (m + 1) (by simp only [hlen, h])

theorem emitBits_of_not_fits (b : Bool) {n : Nat} (hn : n ≠ 0)
    (h : fits s.par.rsCap (s.rsLen.toNat + n) = false) : emitBits b n s = .refused (.capacity .rs) := by
  rw [emitBits, appendBits_of_not_fits b hn _ h, andThen_refused]

-- ---------------------------------------------------------------- the Bit Resampler

/-- A gap is the difference of the timestamps of its pair (R156). -/
theorem edgeGap_eq_sub {d : Nat} (h : edgeGap s = some d) :
    d = (s.inAt (s.rsu.k.toNat + 1)).ts.toNat - (s.inAt s.rsu.k.toNat).ts.toNat := by
  rw [edgeGap, if_pos (lt_of_edgeGap h)] at h
  exact (ticks_eq_some.1 h).2

theorem execRsEdge_of_not_fits (hsel : selRsEdge s = true) (hn : edgeBits s ≠ 0)
    (h : fits s.par.rsCap (s.rsLen.toNat + edgeBits s) = false) : execRsEdge s = .refused (.capacity .rs) := by
  rw [execRsEdge, hsel, whenSelected_true, emitBits_of_not_fits _ hn h, andThen_refused]

/-- An open frame still has bits to come. -/
theorem residual_ne_zero (h : frameOpen s = true) : 300 - s.rsu.count ≠ 0 :=
  Nat.sub_ne_zero_of_lt (frameOpen_iff.1 h).2

theorem execRsFill_of_not_fits (hsel : selRsFill s = true)
    (h : fits s.par.rsCap (s.rsLen.toNat + (300 - s.rsu.count)) = false) :
    execRsFill s = .refused (.capacity .rs) := by
  rw [execRsFill, hsel, whenSelected_true]
  exact emitBits_of_not_fits _ (residual_ne_zero (selRsFill_iff.1 hsel).1) h

theorem execRsClip_of_not_fits (hsel : selRsClip s = true)
    (h : fits s.par.rsCap (s.rsLen.toNat + (300 - s.rsu.count)) = false) :
    execRsClip s = .refused (.capacity .rs) := by
  rw [execRsClip, hsel, whenSelected_true]
  exact emitBits_of_not_fits (s := { s with rsu := { s.rsu with clipped := true } }) _
    (residual_ne_zero (selRsClip_iff.1 hsel).1) h

theorem execRsTrail_of_not_fits (hsel : selRsTrail s = true)
    (h : fits s.par.rsCap (s.rsLen.toNat + 1) = false) : execRsTrail s = .refused (.capacity .rs) := by
  rw [execRsTrail, hsel, whenSelected_true, appendRs_of_not_fits h, andThen_refused]

-- ---------------------------------------------------------------- the Frame Decoder

theorem execDecGood_of_full (hv : ValidFrame s.fb) (h : s.dec.good = 0xFFFFFFFF) :
    execDecGood s = .refused .counterOverflow := by
  rw [execDecGood, frameValid_iff.2 hv, whenSelected_true, counterUp_of_full h]

theorem execDecLost_of_full (hv : ValidFrame s.fb) (hbit : flagBit s.fb 5 = true) (h : s.dec.lost = 0xFFFFFFFF) :
    execDecLost s = .refused .counterOverflow := by
  rw [execDecLost, frameValid_iff.2 hv, hbit, Bool.and_self, whenSelected_true, counterUp_of_full h]

theorem execDecErr_of_full (hv : ¬ValidFrame s.fb) (h : s.dec.errors = 0xFFFFFFFF) :
    execDecErr s = .refused .counterOverflow := by
  have hinvalid : frameValid s.fb = false := Bool.eq_false_iff.2 (mt frameValid_iff.1 hv)
  rw [execDecErr, hinvalid, Bool.not_false, whenSelected_true, counterUp_of_full h]

/-- R245: DEC.OK begins with DEC.GOOD. -/
theorem execDecOk_of_good_full (hv : ValidFrame s.fb) (h : s.dec.good = 0xFFFFFFFF) :
    execDecOk s = .refused .counterOverflow := by
  rw [execDecOk, frameValid_iff.2 hv, whenSelected_true, execDecGood_of_full hv h, andThen_refused]

/-- R264: DEC.OK reaches DEC.LOST unless DEC.GOOD has refused already. -/
theorem execDecOk_of_lost_full (hv : ValidFrame s.fb) (hbit : flagBit s.fb 5 = true) (h : s.dec.lost = 0xFFFFFFFF) :
    execDecOk s = .refused .counterOverflow := by
  by_cases hgood : s.dec.good = 0xFFFFFFFF
  · exact execDecOk_of_good_full hv hgood
  have hvalid := frameValid_iff.2 hv
  have hcounted : execDecGood s = .next { s with dec := { s.dec with good := s.dec.good + 1 } } :=
    exec_decGood_of_valid hv (countsLeft_of_ne_full hgood)
  have hlost : execDecLost (withChannels { s with dec := { s.dec with good := s.dec.good + 1 } } (channelsOf s.fb)) =
      .refused .counterOverflow := execDecLost_of_full hv hbit h
  rw [execDecOk, hvalid, whenSelected_true, andThen_of_eq hcounted]
  refine (andThen_of_eq (decChannels_of_valid
    (s := { s with dec := { s.dec with good := s.dec.good + 1 } }) hvalid)).trans ?_
  rw [withChannels_fb, if_pos hbit, hlost, andThen_refused]

/-- R243, R271: the FDU where the frame would take a counter to 2^32. -/
theorem fdu_of_overflow (h : DecodeOverflows s.fb s.dec) : fdu s = .refused .counterOverflow := by
  rcases h with ⟨hv, hfull⟩ | ⟨hv, herrors⟩
  · rw [fdu, if_pos (frameValid_iff.2 hv)]
    rcases hfull with hgood | ⟨hbit, hlost⟩
    · exact execDecOk_of_good_full hv hgood
    · exact execDecOk_of_lost_full hv hbit hlost
  · rw [fdu, if_neg (mt frameValid_iff.1 hv)]
    exact execDecErr_of_full hv herrors

/-- The FDU writes the decoder state wherever the frame overflows no counter. -/
theorem exists_fdu_of_not_overflow (h : ¬DecodeOverflows s.fb s.dec) : ∃ d, fdu s = .next { s with dec := d } := by
  obtain ⟨d, -, -, hfdu⟩ := exists_fdu_decoded (s := s)
    (fun hv => ⟨countsLeft_of_ne_full fun hgood => h (.inl ⟨hv, .inl hgood⟩),
      fun hbit => countsLeft_of_ne_full fun hlost => h (.inl ⟨hv, .inr ⟨hbit, hlost⟩⟩)⟩)
    (fun hv => countsLeft_of_ne_full fun herrors => h (.inr ⟨hv, herrors⟩))
  exact ⟨d, hfdu⟩

/-- R139: DECODE stops where the FDU does. -/
theorem exec_decode_of_overflow (hlen : s.cfg.fbLen = 25) (h : DecodeOverflows s.fb s.dec) :
    exec .decode s = .refused .counterOverflow := by
  have hok : ¬s.prologue.cfg.fbLen.toNat ≠ Config.frameBytes := by
    rw [State.prologue_cfg, hlen]
    decide
  refine (if_neg hok).trans ?_
  rw [fdu_of_overflow (s := s.prologue) h, andThen_refused]

-- ---------------------------------------------------------------- the Frame Synchronizer

theorem execFrLabel_of_not_fits (hact : s.act = .fsuLabel) (h : fits s.par.evCap (s.ev.length + 1) = false) :
    execFrLabel s = .refused (.capacity .ev) := by
  have hsel : selFrLabel s = true := beq_iff_eq.2 hact
  rw [execFrLabel, hsel, whenSelected_true, appendEv_of_not_fits h, andThen_refused]

/-- R211: a completed word has its event. -/
theorem completeWord_of_not_fits (h : fits s.par.evCap (s.ev.length + 1) = false) (rest : State → Out) :
    completeWord s rest = .refused (.capacity .ev) := by
  rw [completeWord, appendEv_of_not_fits (s := s.setFb _ _) h, andThen_refused]

theorem execFrWord_of_not_fits (hsel : selFrWord s = true) (h : fits s.par.evCap (s.ev.length + 1) = false) :
    execFrWord s = .refused (.capacity .ev) := by
  rw [execFrWord, hsel, whenSelected_true, completeWord_of_not_fits h]

theorem execFrFrame_of_not_fits (hsel : selFrFrame s = true) (h : fits s.par.evCap (s.ev.length + 1) = false) :
    execFrFrame s = .refused (.capacity .ev) := by
  rw [execFrFrame, hsel, whenSelected_true, completeWord_of_not_fits h]

/-- R215: a frame has its event. -/
theorem closeFrame_of_not_fits (h : fits s.par.evCap (s.ev.length + 1) = false) :
    closeFrame s = .refused (.capacity .ev) := by
  rw [closeFrame, appendEv_of_not_fits h, andThen_refused]

/-- R213: FR.FRAME after its word's event: FRAME_COUNT, the decode of the handed frame, and the close of the frame. -/
theorem execFrFrame_of_fits (hsel : selFrFrame s = true) (h : fits s.par.evCap (s.ev.length + 1) = true) :
    execFrFrame s = counterUp s.frameCount fun c =>
      andThen (fdu { frameHanded s with frameCount := c }) fun s => andThen (closeFrame s) fun s =>
        .next (stepEnd s) := by
  have hword : appendEv (byteEvent s (nextRaw s)) (s.setFb s.fsu.bytecnt.toNat (dataByte (nextRaw s))) =
      .next { s.setFb s.fsu.bytecnt.toNat (dataByte (nextRaw s)) with ev := s.ev ++ [byteEvent s (nextRaw s)] } :=
    appendEv_eq_next.2 ⟨h, rfl⟩
  rw [execFrFrame, hsel, whenSelected_true, completeWord, andThen_of_eq hword]
  rfl

theorem execFrFrame_of_count_full (hsel : selFrFrame s = true) (h : fits s.par.evCap (s.ev.length + 1) = true)
    (hcount : s.frameCount = 0xFFFFFFFF) : execFrFrame s = .refused .counterOverflow := by
  rw [execFrFrame_of_fits hsel h, counterUp_of_full hcount]

/-- R214: a frame that overflows a counter of the decoder stops FR.FRAME, if FRAME_COUNT has not. -/
theorem execFrFrame_of_overflow (hsel : selFrFrame s = true) (h : fits s.par.evCap (s.ev.length + 1) = true)
    (hover : DecodeOverflows (frameHanded s).fb s.dec) : execFrFrame s = .refused .counterOverflow := by
  by_cases hcount : s.frameCount = 0xFFFFFFFF
  · exact execFrFrame_of_count_full hsel h hcount
  · rw [execFrFrame_of_fits hsel h, counterUp_of_lt (countsLeft_of_ne_full hcount),
      fdu_of_overflow (s := { frameHanded s with frameCount := s.frameCount + 1 }) hover, andThen_refused]

/-- R215: a frame that is decoded, and for whose own event EV has no room. -/
theorem execFrFrame_of_second_not_fits (hsel : selFrFrame s = true)
    (h : fits s.par.evCap (s.ev.length + 1) = true) (hsecond : fits s.par.evCap (s.ev.length + 2) = false)
    (hcount : countsLeft s.frameCount 1) (hover : ¬DecodeOverflows (frameHanded s).fb s.dec) :
    execFrFrame s = .refused (.capacity .ev) := by
  obtain ⟨d, hfdu⟩ := exists_fdu_of_not_overflow
    (s := { frameHanded s with frameCount := s.frameCount + 1 }) hover
  have hclose : fits s.par.evCap ((frameHanded s).ev.length + 1) = false := by
    rwa [frameHanded, List.length_append, List.length_singleton]
  rw [execFrFrame_of_fits hsel h, counterUp_of_lt hcount, andThen_of_eq hfdu,
    closeFrame_of_not_fits (s := { frameHanded s with frameCount := s.frameCount + 1, dec := d }) hclose,
    andThen_refused]

/-- R206, R213: the frame that FR.FRAME hands over has the byte of the completed word in FB[24]. -/
theorem frameHanded_fb (hsel : selFrFrame s = true) :
    (frameHanded s).fb = s.fb.setIfInBounds 24 (BitVec.ofNat 8
      ((s.fsu.raw ||| BitVec.ofNat 12 (s.rsAt s.fsu.i.toNat).bit.toNat).toNat / 8)) := by
  obtain ⟨-, hbit, hbyte⟩ := selFrFrame_iff.1 hsel
  rw [frameHanded, hbyte, nextRaw, shiftIn_last _ _ hbit, dataByte_eq]

end

/-- Settles O54: a selected operation has its guard open, and the first of its counters and memories that is full refuses. -/
theorem countersAndMemoriesNeverWrap : Obligations.CountersAndMemoriesNeverWrap := by
  intro s
  refine ⟨execDecGood_of_full, execDecOk_of_good_full,
    fun hv hbit hlost => ⟨execDecLost_of_full hv hbit hlost, execDecOk_of_lost_full hv hbit hlost⟩,
    execDecErr_of_full, execFrLabel_of_not_fits, fun hsel => execFrWord_of_not_fits (guardOf_selectOp hsel),
    exec_decode_of_overflow, ?frame, fun hact hcount => execRsTrail_of_not_fits (selRsTrail_iff.2 ⟨hact, hcount⟩),
    ?edge, ?residual⟩
  case frame =>
    rintro r hselected rfl raw fb
    have hsel : selFrFrame s = true := guardOf_selectOp hselected
    have hfb : (frameHanded s).fb = fb := frameHanded_fb hsel
    rw [← hfb]
    exact ⟨execFrFrame_of_not_fits hsel, fun hfits => ⟨execFrFrame_of_count_full hsel hfits,
      execFrFrame_of_overflow hsel hfits, execFrFrame_of_second_not_fits hsel hfits⟩⟩
  case edge =>
    rintro r r' hselected rfl rfl n hn hfits
    have hsel : selRsEdge s = true := guardOf_selectOp hselected
    obtain ⟨-, d, hgap, -⟩ := selRsEdge_iff.1 hsel
    have hbits : edgeBits s = n := by rw [edgeBits_of_edgeGap hgap, edgeGap_eq_sub hgap]
    rw [← hbits] at hn hfits
    exact execRsEdge_of_not_fits hsel hn hfits
  case residual =>
    intro i hi hselected hfits
    have hguard := guardOf_selectOp hselected
    simp only [List.mem_cons, List.not_mem_nil, or_false] at hi
    rcases hi with rfl | rfl
    · exact execRsFill_of_not_fits hguard hfits
    · exact execRsClip_of_not_fits hguard hfits

end Sys2Proof.Machine
end
